-- ==== Sys2Proof/Word.lean ====
section
/-! DEFINITION. The words of gb-rs CORE: bytes and addresses (spec/00_scope.md R8), the three ports and
their command words (spec/30_encoding.md R72 to R76), and the two enumerations an operand or a field can
hold (spec/30_encoding.md R78). -/

namespace Sys2Proof

/-- One byte: `DATA_W` = 8 bits, and `SAMPLE_W` = 8 bits unsigned for an amplitude (R8). -/
abbrev Byte := BitVec 8

/-- A bus address: `ADDR_W` = 16 bits (R8, R46). -/
abbrev Addr := BitVec 16

/-- The three ports operations arrive on (R6, R71). -/
inductive Port where
  | bus
  | bank
  | wave
deriving DecidableEq, Repr

/-- A command word together with the port it arrives on; the port tells the word's format (R72, R85). -/
inductive Command where
  /-- Format B, 26 bits (R73). -/
  | bus (w : BitVec 26)
  /-- Format K, 17 bits (R74). -/
  | bank (w : BitVec 17)
  /-- Format W, 20 bits (R76). -/
  | wave (w : BitVec 20)
deriving DecidableEq, Repr

/-- The port a command word arrives on (R85). -/
def Command.port : Command → Port
  | .bus _ => .bus
  | .bank _ => .bank
  | .wave _ => .wave

/-- `W.mode` (R28); the codes are 0 `Continuous`, 1 `Counter` (R78). -/
inductive Mode where
  | continuous
  | counter
deriving DecidableEq, Repr

/-- `W.level` (R25); the codes are 0 `Mute`, 1 `Full`, 2 `Half`, 3 `Quarter` (R78). -/
inductive Level where
  | mute
  | full
  | half
  | quarter
deriving DecidableEq, Repr

end Sys2Proof
end

