-- ==== Sys2Proof/Config.lean ====
section
/-! DEFINITION. The open parameters of spec/00_scope.md R8: the image `ROM` and the video subsystem `VIDEO`.
Each is a constant without a body, so that nothing in Lean can prove a value of it and every theorem about
the model holds for every image and every video subsystem. -/

namespace Sys2Proof

/-- The state `V` of the video subsystem (R20): the line it currently shows, and a code for everything else
it may remember. DESIGN CHOICE, log 6: any `VIDEO` with a countable state type is of this form. -/
structure VState where
  /-- The current line, what `get_current_line` answers. -/
  line : Byte
  /-- A code of the rest of the video subsystem's state, about which the spec says nothing. -/
  hidden : Nat
deriving DecidableEq, Repr, Inhabited

/-- `vline : VState → byte`, consumed verbatim by a read of 0xFF44 (R20, R113). -/
def VState.vline (v : VState) : Byte := v.line

/-- `vreset : VState`, the state of the video subsystem at power-on and after `BUS.RESET` (R20, R36).
FREE VALUE, log 6. -/
opaque Config.vreset : VState

/-- `vstep : VState → VState`, one tick of the video subsystem (R20, R110). FREE VALUE, log 6. -/
opaque Config.vstep : VState → VState

/-- The image byte at an offset, for every offset the state does not list as data (R15, decision D10).
FREE VALUE, log 5. -/
opaque Config.romByte : Nat → Byte

end Sys2Proof
end

