-- ==== Sys2Proof/Machine/State.lean ====
section
/-! DEFINITION. The state of gb-rs CORE as plain data (spec/10_state.md R13), what an operation can answer
(spec/00_scope.md R5; spec/60_exceptions.md R177, R178), and the state right after power-on (R36). -/

namespace Sys2Proof.Machine

/-! ### Byte stores -/

/-- A store of bytes: the cells that do not hold 0x00, as (offset, byte) pairs, offsets rising. -/
abbrev Memory := List Host.Cell

/-- What an unlisted cell of a byte store reads as: 0x00, the power-on value of every RAM cell and of every
cell of the register bank (R36). -/
def Memory.unlisted : Byte := 0#8

/-- The canonical form of a store of `size` cells: offsets strictly rising and below `size`, and no listed
cell equal to what an unlisted one reads as. -/
abbrev Memory.wf (size : Nat) (m : Memory) : Prop :=
  m.Pairwise (fun c d => c.1 < d.1) ∧ ∀ c ∈ m, c.1 < size ∧ c.2 ≠ Memory.unlisted

/-! ### Outcomes -/

/-- The fatal causes with the info each records (R177); the value the latch holds (R19). -/
inductive Fatal where
  /-- 0x01 `UnmappedRead`: raised by `RD` of 0xE000..0xFEFF. -/
  | unmappedRead (addr : Addr)
  /-- 0x02 `UnmappedWrite`: raised by `WR` to 0xE000..0xFEFF. -/
  | unmappedWrite (addr : Addr) (value : Byte)
  /-- 0x03 `ScanlineWrite`: raised by `WR` to 0xFF44. -/
  | scanlineWrite (value : Byte)
  /-- 0x04 `DividerRange`: raised by `W.SETDIV` of 0x800 or more. -/
  | dividerRange (v : BitVec 16)
  /-- 0x05 `WaveIndexRange`: raised by `W.RAMRD` and `W.RAMWR` of an index of 32 or more. -/
  | waveIndexRange (index : Byte)
  /-- 0x06 `IllegalCommand`: raised by the decoder on a reserved command word. -/
  | illegalCommand (word : Command)
deriving DecidableEq, Repr

/-- The cause code (R177). -/
def Fatal.code : Fatal → Byte
  | .unmappedRead _ => 0x01
  | .unmappedWrite _ _ => 0x02
  | .scanlineWrite _ => 0x03
  | .dividerRange _ => 0x04
  | .waveIndexRange _ => 0x05
  | .illegalCommand _ => 0x06

/-- The recoverable causes with the info each reports (R178). -/
inductive Diag where
  /-- 0x10 `RomWrite`. -/
  | romWrite (addr : Addr) (value : Byte)
  /-- 0x11 `IoReadUnhandled`. -/
  | ioReadUnhandled (off : Byte)
  /-- 0x12 `IoWriteUnhandled`. -/
  | ioWriteUnhandled (off : Byte) (value : Byte)
deriving DecidableEq, Repr

/-- The diagnostic's code (R178). -/
def Diag.code : Diag → Byte
  | .romWrite _ _ => 0x10
  | .ioReadUnhandled _ => 0x11
  | .ioWriteUnhandled _ _ => 0x12

/-- The response of an operation (R79). -/
inductive Response where
  /-- No response. -/
  | none
  /-- 8 bits: `RD`, `BANK.GET`, `W.SAMPLE`, `W.RAMRD`. -/
  | byte (b : Byte)
  /-- 16 bits: `W.DIV`. -/
  | half (v : BitVec 16)
deriving DecidableEq, Repr

/-- The three outcome kinds, kept apart (R5, R176). -/
inductive OpOutcome where
  /-- `Ok(state', response)`. -/
  | ok (r : Response)
  /-- `Ok(state', response)` accompanied by one diagnostic event. -/
  | okDiag (r : Response) (d : Diag)
  /-- `Fatal(cause, info)`. -/
  | fatal (f : Fatal)
deriving DecidableEq, Repr

/-! ### The state record -/

/-- The Wave Channel (R13, R22 to R30). -/
structure Wave where
  /-- `W.running` (R22). -/
  running : Bool
  /-- `W.enabled`, the output gate (R23). -/
  enabled : Bool
  /-- `W.remaining`, the counter-mode tick budget (R24). -/
  remaining : BitVec 23
  /-- `W.level` (R25). -/
  level : Level
  /-- `W.divider`, the frequency control (R26). -/
  divider : BitVec 11
  /-- `W.counter`, the period countdown (R27). -/
  counter : BitVec 13
  /-- `W.mode` (R28). -/
  mode : Mode
  /-- `W.samples[0..31]` (R29). -/
  samples : Vector Byte 32
  /-- `W.index` (R30). -/
  index : BitVec 5
deriving DecidableEq, Repr

/-- The state. `ram`, `bank`, `video`, `fatal` and `wave` are the record of R13; `rom` carries the parameter
`ROM` as far as it is given as data; `pending` and `outcomes` are the model's own input and output. -/
structure State where
  /-- `RAM[0..0x5FFF]` (R14). -/
  ram : Memory
  /-- `BANK[0..0xFF]` (R16, R126). -/
  bank : Memory
  /-- `V` (R20). -/
  video : VState
  /-- The fatal latch (R19). -/
  fatal : Option Fatal
  /-- `W` (R22 to R30). -/
  wave : Wave
  /-- The image bytes given as data (R15); every other byte is `Config.romByte`. No operation writes it.
  DESIGN CHOICE, log 5. -/
  rom : List Host.Cell
  /-- The command words presented and not yet taken, in their total order (R62). DESIGN CHOICE, log 1. -/
  pending : List Command
  /-- What each operation answered, newest first (R79, R177, R178). DESIGN CHOICE, log 2. -/
  outcomes : List OpOutcome
deriving DecidableEq, Repr

/-- Why a step stops without a next state. It has no constructor: the spec gives every operation an outcome
in every state (R5, R115), and a fatal condition, too, is a next state, the one with the latch set (R19,
R179; log 3). -/
inductive Fault : Type
deriving DecidableEq, Repr

/-- Why the model gives no meaning. -/
inductive Refusal where
  /-- Raised by `exec` alone, in the arm of an operation that has no meaning yet. Every operation has one, so
  nothing raises it. Safe: the model would stop where the hardware goes on. -/
  | notModelled (mnemonic : String)
deriving DecidableEq, Repr

/-- `WAVE_INIT`, the Wave Channel at power-on (R36, R207). DESIGN CHOICE (decision D15 of the spec), log 7. -/
def Wave.init : Wave where
  running := false
  enabled := false
  remaining := 0
  level := .mute
  divider := 0
  counter := 0
  mode := .continuous
  samples := Vector.replicate 32 0
  index := 0

/-- Power-on (R36, R206, R207): RAM and bank zero, the video subsystem in `vreset`, no fatal condition, the
channel in `WAVE_INIT`. Nothing is listed of the image, no command has arrived, none has been answered. -/
def State.reset : State where
  ram := []
  bank := []
  video := Config.vreset
  fatal := none
  wave := Wave.init
  rom := []
  pending := []
  outcomes := []

end Sys2Proof.Machine
end

