-- ==== Sys2Proof/Machine/Ops.lean ====
section
/-! DEFINITION. The named operations over the state: the byte stores, one update per field of State, the
answers of an operation, and taking a fatal condition, which every operation that can raise one shares
(spec/60_exceptions.md R179, R180). -/

namespace Sys2Proof.Machine

/-! ### Byte stores -/

/-- The byte listed at an offset. -/
def Memory.lookup : Memory → Nat → Option Byte
  | [], _ => none
  | c :: rest, a => if c.1 = a then some c.2 else Memory.lookup rest a

/-- The byte a store holds at an offset (R14, R126). -/
def Memory.read (m : Memory) (a : Nat) : Byte := (m.lookup a).getD Memory.unlisted

/-- Lists a byte at an offset, before the first higher offset. -/
def Memory.insert : Memory → Nat → Byte → Memory
  | [], a, v => [(a, v)]
  | c :: rest, a, v => if a < c.1 then (a, v) :: c :: rest else c :: Memory.insert rest a v

/-- Lists nothing at an offset. -/
def Memory.remove (m : Memory) (a : Nat) : Memory := m.filter (fun c => c.1 ≠ a)

/-- Stores a byte at an offset and leaves every other offset (R60, R131). The canonical form is kept: the byte
an unlisted cell reads as is stored by listing nothing. -/
def Memory.write (m : Memory) (a : Nat) (v : Byte) : Memory :=
  if v = Memory.unlisted then m.remove a else (m.remove a).insert a v

/-- `ROM[off]`: the byte given as data, else the open parameter (R15, R111). -/
def State.romByte (s : State) (off : Nat) : Byte :=
  (Memory.lookup s.rom off).getD (Config.romByte off)

/-! ### One update per field -/

/-- `RAM <- m`. -/
def State.setRam (s : State) (m : Memory) : State := { s with ram := m }

/-- `BANK <- m`. -/
def State.setBank (s : State) (m : Memory) : State := { s with bank := m }

/-- `V <- v`. -/
def State.setVideo (s : State) (v : VState) : State := { s with video := v }

/-- `fatal <- f`. -/
def State.setFatal (s : State) (f : Option Fatal) : State := { s with fatal := f }

/-- `W <- w`. -/
def State.setWave (s : State) (w : Wave) : State := { s with wave := w }

/-- The commands still to be taken. -/
def State.setPending (s : State) (cs : List Command) : State := { s with pending := cs }

/-- Records what an operation answers. -/
def State.answer (s : State) (o : OpOutcome) : State := { s with outcomes := o :: s.outcomes }

/-! ### Answers -/

/-- The result of an operation of the block. -/
abbrev Result := Host.Outcome State Fault Refusal

/-- `return r`: the operation completes silently (R10, R176). -/
def done (r : Response) (s : State) : Result := .next (s.answer (.ok r))

/-- `emit d; return r`: the operation completes and reports one diagnostic, which changes no state (R10,
R178). -/
def doneDiag (r : Response) (d : Diag) (s : State) : Result := .next (s.answer (.okDiag r d))

/-- `raise Fatal(f)`: taking a fatal condition (R10, R19, R179). The outcome is `Fatal(f)`, the latch is set,
and nothing else changes. There is no return from it (R187). -/
def raiseFatal (f : Fatal) (s : State) : Result := .next ((s.setFatal (some f)).answer (.fatal f))

/-- The first line of every operation, `if fatal != None then raise Fatal(fatal)` (R19, R180, R185): with the
latch set the outcome is the latched one and nothing changes; otherwise the operation's own effect. -/
def unlessFatal (s : State) (k : State → Result) : Result :=
  match s.fatal with
  | some f => .next (s.answer (.fatal f))
  | none => k s

/-! ### The register bank -/

/-- `BANK[off]`: the raw cell read (R127). -/
def State.bankCell (s : State) (off : Byte) : Byte := s.bank.read off.toNat

/-- `BANK[off] <- v`: the raw cell write (R128). -/
def State.setBankCell (s : State) (off v : Byte) : State := s.setBank (s.bank.write off.toNat v)

/-- `BANK.RESET`, the internal primitive: zeroes every cell (R129). -/
def State.bankReset (s : State) : State := s.setBank []

/-! ### The read/write store -/

/-- `RAM[off]` (R112). -/
def State.ramCell (s : State) (off : Nat) : Byte := s.ram.read off

/-- `RAM[off] <- v` (R112). -/
def State.setRamCell (s : State) (off : Nat) (v : Byte) : State := s.setRam (s.ram.write off v)

/-- `reset()` of the read/write store: zeroes all contents (R112). -/
def State.ramReset (s : State) : State := s.setRam []

end Sys2Proof.Machine
end

