-- ==== Sys2Proof/Machine/Bank.lean ====
section
/-! DEFINITION. The BANK operations (spec/41_io_register_bank.md R127, R128): the raw cell read and write,
without the dispatcher's special case for offset 0x44 and without a diagnostic (R132). -/

namespace Sys2Proof.Machine

/-- `BANK.GET off` (R127): `return BANK[off]`. -/
def execBankGet (off : Byte) (s : State) : Result :=
  unlessFatal s fun s => done (.byte (s.bankCell off)) s

/-- `BANK.SET off, value` (R128): `BANK[off] <- value`. -/
def execBankSet (off value : Byte) (s : State) : Result :=
  unlessFatal s fun s => done .none (s.setBankCell off value)

end Sys2Proof.Machine
end

