-- ==== Sys2Proof/Syntax.lean ====
section
/-! DEFINITION. The operations of gb-rs CORE as an abstract type: one constructor per mnemonic of
spec/opcode_table.json. The table's 49 rows carry 25 mnemonics: a form of `RD` or `WR` whose addresses are
several bit patterns has one row per pattern, all of one mnemonic and one rule (spec/30_encoding.md R82). -/

namespace Sys2Proof

/-- The operations (R71), `RD` and `WR` split into their forms by address (R75). The forms keep the whole
bus address as operand; which addresses a form has is `Instr.WellFormed`. -/
inductive Instr where
  /-- `RD.ROM` (R98). -/
  | rdRom (addr : Addr)
  /-- `RD.RAM` (R99). -/
  | rdRam (addr : Addr)
  /-- `RD.UNMAPPED` (R100). -/
  | rdUnmapped (addr : Addr)
  /-- `RD.LY`, address 0xFF44 (R102). -/
  | rdLy
  /-- `RD.IO` (R101). -/
  | rdIo (addr : Addr)
  /-- `WR.ROM` (R104). -/
  | wrRom (addr : Addr) (value : Byte)
  /-- `WR.RAM` (R105). -/
  | wrRam (addr : Addr) (value : Byte)
  /-- `WR.UNMAPPED` (R106). -/
  | wrUnmapped (addr : Addr) (value : Byte)
  /-- `WR.LY`, address 0xFF44 (R108). -/
  | wrLy (value : Byte)
  /-- `WR.IO` (R107). -/
  | wrIo (addr : Addr) (value : Byte)
  /-- `BUS.STEP` (R110). -/
  | busStep
  /-- `BUS.RESET` (R109). -/
  | busReset
  /-- `BANK.GET` (R127). -/
  | bankGet (off : Byte)
  /-- `BANK.SET` (R128). -/
  | bankSet (off : Byte) (value : Byte)
  /-- `W.STEP` (R137). -/
  | wStep
  /-- `W.SAMPLE` (R141). -/
  | wSample
  /-- `W.RAMRD` (R143). -/
  | wRamrd (index : Byte)
  /-- `W.RAMWR` (R144). -/
  | wRamwr (index : Byte) (amplitude : Byte)
  /-- `W.START` (R146). -/
  | wStart
  /-- `W.DIV` (R151). -/
  | wDiv
  /-- `W.SETDIV` (R145). -/
  | wSetdiv (v : BitVec 16)
  /-- `W.SETMODE` (R148). -/
  | wSetmode (m : Mode)
  /-- `W.SETLEN` (R147). -/
  | wSetlen (len : Byte)
  /-- `W.SETEN` (R149). -/
  | wSeten (b : Bool)
  /-- `W.SETLVL` (R150). -/
  | wSetlvl (level : Level)
deriving DecidableEq, Repr

/-- The port an operation is issued on (R71). -/
def Instr.port : Instr → Port
  | .rdRom _ => .bus
  | .rdRam _ => .bus
  | .rdUnmapped _ => .bus
  | .rdLy => .bus
  | .rdIo _ => .bus
  | .wrRom _ _ => .bus
  | .wrRam _ _ => .bus
  | .wrUnmapped _ _ => .bus
  | .wrLy _ => .bus
  | .wrIo _ _ => .bus
  | .busStep => .bus
  | .busReset => .bus
  | .bankGet _ => .bank
  | .bankSet _ _ => .bank
  | .wStep => .wave
  | .wSample => .wave
  | .wRamrd _ => .wave
  | .wRamwr _ _ => .wave
  | .wStart => .wave
  | .wDiv => .wave
  | .wSetdiv _ => .wave
  | .wSetmode _ => .wave
  | .wSetlen _ => .wave
  | .wSeten _ => .wave
  | .wSetlvl _ => .wave

end Sys2Proof
end

