-- ==== Sys2Proof/WellFormed.lean ====
section
/-! DEFINITION. Which terms of `Instr` stand for an operation of the block: the forms of `RD` and `WR` have
the addresses spec/30_encoding.md R75 gives them; every other operand may hold any value of its type
(R80, R81). -/

namespace Sys2Proof

/-- An address of the image store, 0x0000..0x7FFF (R49, R75). -/
abbrev InRom (a : Addr) : Prop := a.toNat < 0x8000

/-- An address of the read/write store, 0x8000..0xDFFF (R49, R75). -/
abbrev InRam (a : Addr) : Prop := 0x8000 ≤ a.toNat ∧ a.toNat < 0xE000

/-- An address of the unmapped range, 0xE000..0xFEFF (R49, R75). -/
abbrev InUnmapped (a : Addr) : Prop := 0xE000 ≤ a.toNat ∧ a.toNat < 0xFF00

/-- An address of a plain cell of the I/O window, 0xFF00..0xFFFF but 0xFF44 (R49, R75). -/
abbrev InIo (a : Addr) : Prop := 0xFF00 ≤ a.toNat ∧ a ≠ 0xFF44#16

/-- The check on one operation, constructor by constructor. -/
def Instr.wf : Instr → Bool
  | .rdRom a => decide (InRom a)
  | .rdRam a => decide (InRam a)
  | .rdUnmapped a => decide (InUnmapped a)
  | .rdLy => true
  | .rdIo a => decide (InIo a)
  | .wrRom a _ => decide (InRom a)
  | .wrRam a _ => decide (InRam a)
  | .wrUnmapped a _ => decide (InUnmapped a)
  | .wrLy _ => true
  | .wrIo a _ => decide (InIo a)
  | .busStep => true
  | .busReset => true
  | .bankGet _ => true
  | .bankSet _ _ => true
  | .wStep => true
  | .wSample => true
  | .wRamrd _ => true
  | .wRamwr _ _ => true
  | .wStart => true
  | .wDiv => true
  | .wSetdiv _ => true
  | .wSetmode _ => true
  | .wSetlen _ => true
  | .wSeten _ => true
  | .wSetlvl _ => true

/-- An operation the decoder can answer: its address, if it has one, is of its form. -/
abbrev Instr.WellFormed (i : Instr) : Prop := i.wf = true

end Sys2Proof
end

