-- ==== Sys2Proof/Decode.lean ====
section
/-! DEFINITION. The address decode of the dispatcher (spec/40_bus_dispatcher.md R96), the decoder and the
encoder of the three command-word formats (spec/30_encoding.md R72 to R78, R83), and the rows of
spec/opcode_table.json as data (R82). -/

namespace Sys2Proof

/-! ### The address decode -/

/-- `off_ram = addr - 0x8000` for an address of the read/write store (R47, R80). -/
def ramOffset (a : Addr) : Nat := a.toNat - 0x8000

/-- `off_io = addr - 0xFF00` for an address of the I/O window (R47, R80). -/
def ioOffset (a : Addr) : Byte := BitVec.ofNat 8 (a.toNat - 0xFF00)

/-- The bus targets with the offset passed to each (R47, R96). -/
inductive Target where
  | rom (off : Nat)
  | ram (off : Nat)
  | unmapped
  | io (off : Byte)
deriving DecidableEq, Repr

/-- `Decode(addr)`: three comparisons, first match wins (R50, R96). It reads no state (R52). -/
def decodeAddr (a : Addr) : Target :=
  if a.toNat < 0x8000 then .rom a.toNat
  else if a.toNat < 0xE000 then .ram (ramOffset a)
  else if a.toNat < 0xFF00 then .unmapped
  else .io (ioOffset a)

/-- The form of `RD addr` (R97): the decode of the address, and offset 0x44 apart from the other I/O
offsets. -/
def rdForm (a : Addr) : Instr :=
  match decodeAddr a with
  | .rom _ => .rdRom a
  | .ram _ => .rdRam a
  | .unmapped => .rdUnmapped a
  | .io off => if off = 0x44#8 then .rdLy else .rdIo a

/-- The form of `WR addr, value` (R103). -/
def wrForm (a : Addr) (value : Byte) : Instr :=
  match decodeAddr a with
  | .rom _ => .wrRom a value
  | .ram _ => .wrRam a value
  | .unmapped => .wrUnmapped a value
  | .io off => if off = 0x44#8 then .wrLy value else .wrIo a value

/-! ### The decoder -/

/-- Why a command word is reserved (R83; spec/93_implementation_defined.md E1 to E5). -/
inductive Illegal where
  /-- E1: a `RD` word whose `data` field is not zero. -/
  | readData
  /-- E2: a `BUS.STEP` or `BUS.RESET` word with any of bits 23:0 set. -/
  | busOperands
  /-- E3: a `BANK.GET` word whose `data` field is not zero. -/
  | getData
  /-- E4: a WAVE word with `wop` in 0xB..0xF. -/
  | waveOpcode
  /-- E5: a WAVE word with a must-be-zero bit of `arg` set. -/
  | waveOperand
deriving DecidableEq, Repr

/-- What the decoder says of a command word: the operation, or `Illegal` with the reason (R83). -/
inductive Decoded where
  | legal (i : Instr)
  | illegal (r : Illegal)
deriving DecidableEq, Repr

/-- `i`, if the must-be-zero field holds zero. -/
def Decoded.guard (mbz : Bool) (r : Illegal) (i : Instr) : Decoded :=
  if mbz then .legal i else .illegal r

/-- Format B: `bop` = bits 25:24, `addr` = bits 23:8, `data` = bits 7:0 (R73). -/
def decodeBus (w : BitVec 26) : Decoded :=
  let bop := w.extractLsb' 24 2
  let addr := w.extractLsb' 8 16
  let data := w.extractLsb' 0 8
  if bop = 0b00#2 then Decoded.guard (data = 0#8) .readData (rdForm addr)
  else if bop = 0b01#2 then .legal (wrForm addr data)
  else if bop = 0b10#2 then Decoded.guard (addr = 0#16 ∧ data = 0#8) .busOperands .busStep
  else Decoded.guard (addr = 0#16 ∧ data = 0#8) .busOperands .busReset

/-- Format K: `kop` = bit 16, `off` = bits 15:8, `data` = bits 7:0 (R74). -/
def decodeBank (w : BitVec 17) : Decoded :=
  let kop := w.extractLsb' 16 1
  let off := w.extractLsb' 8 8
  let data := w.extractLsb' 0 8
  if kop = 0#1 then Decoded.guard (data = 0#8) .getData (.bankGet off)
  else .legal (.bankSet off data)

/-- The mode of a 1-bit code (R78). -/
def Mode.ofCode (c : BitVec 1) : Mode :=
  if c = 0#1 then .continuous else .counter

/-- The level of a 2-bit code; all four codes are legal (R78, R150). -/
def Level.ofCode (c : BitVec 2) : Level :=
  if c = 0#2 then .mute else if c = 1#2 then .full else if c = 2#2 then .half else .quarter

/-- Format W: `wop` = bits 19:16, `arg` = bits 15:0, with `arg` laid out per operation (R76, R77). -/
def decodeWave (w : BitVec 20) : Decoded :=
  let wop := w.extractLsb' 16 4
  let arg := w.extractLsb' 0 16
  let lo := w.extractLsb' 0 8
  let hi := w.extractLsb' 8 8
  if wop = 0x0#4 then Decoded.guard (arg = 0#16) .waveOperand .wStep
  else if wop = 0x1#4 then Decoded.guard (arg = 0#16) .waveOperand .wSample
  else if wop = 0x2#4 then Decoded.guard (hi = 0#8) .waveOperand (.wRamrd lo)
  else if wop = 0x3#4 then .legal (.wRamwr lo hi)
  else if wop = 0x4#4 then Decoded.guard (arg = 0#16) .waveOperand .wStart
  else if wop = 0x5#4 then Decoded.guard (arg = 0#16) .waveOperand .wDiv
  else if wop = 0x6#4 then .legal (.wSetdiv arg)
  else if wop = 0x7#4 then
    Decoded.guard (w.extractLsb' 1 15 = 0#15) .waveOperand (.wSetmode (Mode.ofCode (w.extractLsb' 0 1)))
  else if wop = 0x8#4 then Decoded.guard (hi = 0#8) .waveOperand (.wSetlen lo)
  else if wop = 0x9#4 then
    Decoded.guard (w.extractLsb' 1 15 = 0#15) .waveOperand (.wSeten (w.extractLsb' 0 1 = 1#1))
  else if wop = 0xA#4 then
    Decoded.guard (w.extractLsb' 2 14 = 0#14) .waveOperand (.wSetlvl (Level.ofCode (w.extractLsb' 0 2)))
  else .illegal .waveOpcode

/-- The decoder, total on every word of every port (R83, R85). -/
def decodeCommand : Command → Decoded
  | .bus w => decodeBus w
  | .bank w => decodeBank w
  | .wave w => decodeWave w

/-! ### The encoder -/

/-- `{bop, addr, data}` (R73). -/
def busWord (bop : BitVec 2) (addr : Addr) (data : Byte) : Command := .bus (bop ++ addr ++ data)

/-- `{kop, off, data}` (R74). -/
def bankWord (kop : BitVec 1) (off data : Byte) : Command := .bank (kop ++ off ++ data)

/-- `{wop, arg[15:8], arg[7:0]}` (R76). -/
def waveWord (wop : BitVec 4) (hi lo : Byte) : Command := .wave (wop ++ hi ++ lo)

/-- The code of a mode (R78), as a byte of `arg`. -/
def Mode.code : Mode → Byte
  | .continuous => 0
  | .counter => 1

/-- The code of a level (R78), as a byte of `arg`. -/
def Level.code : Level → Byte
  | .mute => 0
  | .full => 1
  | .half => 2
  | .quarter => 3

/-- The code of `b` (R78), as a byte of `arg`. -/
def boolCode : Bool → Byte
  | false => 0
  | true => 1

/-- The command word of an operation (R73, R74, R77). -/
def encode : Instr → Command
  | .rdRom a => busWord 0b00 a 0
  | .rdRam a => busWord 0b00 a 0
  | .rdUnmapped a => busWord 0b00 a 0
  | .rdLy => busWord 0b00 0xFF44 0
  | .rdIo a => busWord 0b00 a 0
  | .wrRom a v => busWord 0b01 a v
  | .wrRam a v => busWord 0b01 a v
  | .wrUnmapped a v => busWord 0b01 a v
  | .wrLy v => busWord 0b01 0xFF44 v
  | .wrIo a v => busWord 0b01 a v
  | .busStep => busWord 0b10 0 0
  | .busReset => busWord 0b11 0 0
  | .bankGet off => bankWord 0 off 0
  | .bankSet off v => bankWord 1 off v
  | .wStep => waveWord 0x0 0 0
  | .wSample => waveWord 0x1 0 0
  | .wRamrd i => waveWord 0x2 0 i
  | .wRamwr i s => waveWord 0x3 s i
  | .wStart => waveWord 0x4 0 0
  | .wDiv => waveWord 0x5 0 0
  | .wSetdiv v => waveWord 0x6 (v.extractLsb' 8 8) (v.extractLsb' 0 8)
  | .wSetmode m => waveWord 0x7 0 m.code
  | .wSetlen l => waveWord 0x8 0 l
  | .wSeten b => waveWord 0x9 0 (boolCode b)
  | .wSetlvl l => waveWord 0xA 0 l.code

/-- The pseudo-operation `W.STEPN n`: `n` words of `W.STEP` (R87). -/
def waveStepN (n : Nat) : List Command := List.replicate n (encode .wStep)

/-- The pseudo-operation `BUS.STEPN n`: `n` words of `BUS.STEP` (R87). -/
def busStepN (n : Nat) : List Command := List.replicate n (encode .busStep)

/-! ### The opcode table -/

/-- The mnemonics of spec/opcode_table.json. -/
inductive Form where
  /-- `RD.ROM` -/
  | rdRom
  /-- `RD.RAM` -/
  | rdRam
  /-- `RD.UNMAPPED` -/
  | rdUnmapped
  /-- `RD.LY` -/
  | rdLy
  /-- `RD.IO` -/
  | rdIo
  /-- `WR.ROM` -/
  | wrRom
  /-- `WR.RAM` -/
  | wrRam
  /-- `WR.UNMAPPED` -/
  | wrUnmapped
  /-- `WR.LY` -/
  | wrLy
  /-- `WR.IO` -/
  | wrIo
  /-- `BUS.STEP` -/
  | busStep
  /-- `BUS.RESET` -/
  | busReset
  /-- `BANK.GET` -/
  | bankGet
  /-- `BANK.SET` -/
  | bankSet
  /-- `W.STEP` -/
  | wStep
  /-- `W.SAMPLE` -/
  | wSample
  /-- `W.RAMRD` -/
  | wRamrd
  /-- `W.RAMWR` -/
  | wRamwr
  /-- `W.START` -/
  | wStart
  /-- `W.DIV` -/
  | wDiv
  /-- `W.SETDIV` -/
  | wSetdiv
  /-- `W.SETMODE` -/
  | wSetmode
  /-- `W.SETLEN` -/
  | wSetlen
  /-- `W.SETEN` -/
  | wSeten
  /-- `W.SETLVL` -/
  | wSetlvl
deriving DecidableEq, Repr

/-- The mnemonic of an operation. -/
def Instr.form : Instr → Form
  | .rdRom _ => .rdRom
  | .rdRam _ => .rdRam
  | .rdUnmapped _ => .rdUnmapped
  | .rdLy => .rdLy
  | .rdIo _ => .rdIo
  | .wrRom _ _ => .wrRom
  | .wrRam _ _ => .wrRam
  | .wrUnmapped _ _ => .wrUnmapped
  | .wrLy _ => .wrLy
  | .wrIo _ _ => .wrIo
  | .busStep => .busStep
  | .busReset => .busReset
  | .bankGet _ => .bankGet
  | .bankSet _ _ => .bankSet
  | .wStep => .wStep
  | .wSample => .wSample
  | .wRamrd _ => .wRamrd
  | .wRamwr _ _ => .wRamwr
  | .wStart => .wStart
  | .wDiv => .wDiv
  | .wSetdiv _ => .wSetdiv
  | .wSetmode _ => .wSetmode
  | .wSetlen _ => .wSetlen
  | .wSeten _ => .wSeten
  | .wSetlvl _ => .wSetlvl

/-- A row of spec/opcode_table.json for a format of `n` bits: the row selects a word `w` when
`w AND mask = pattern` (R82; the table's name for the pattern is `match`). -/
structure TableRow (n : Nat) where
  form : Form
  pattern : BitVec n
  mask : BitVec n
deriving DecidableEq, Repr

/-- The row selects the word (R82). -/
def TableRow.selects {n : Nat} (r : TableRow n) (w : BitVec n) : Bool := w &&& r.mask = r.pattern

/-- The table's rows of `RD`, in its order. -/
def rdRows : List (TableRow 26) :=
  [
   ⟨.rdRom, 0x0000000, 0x38000FF⟩,
   ⟨.rdRam, 0x0800000, 0x3C000FF⟩,
   ⟨.rdRam, 0x0C00000, 0x3E000FF⟩,
   ⟨.rdUnmapped, 0x0E00000, 0x3F000FF⟩,
   ⟨.rdUnmapped, 0x0F00000, 0x3F800FF⟩,
   ⟨.rdUnmapped, 0x0F80000, 0x3FC00FF⟩,
   ⟨.rdUnmapped, 0x0FC0000, 0x3FE00FF⟩,
   ⟨.rdUnmapped, 0x0FE0000, 0x3FF00FF⟩,
   ⟨.rdLy, 0x0FF4400, 0x3FFFFFF⟩,
   ⟨.rdIo, 0x0FF8000, 0x3FF80FF⟩,
   ⟨.rdIo, 0x0FF0000, 0x3FFC0FF⟩,
   ⟨.rdIo, 0x0FF6000, 0x3FFE0FF⟩,
   ⟨.rdIo, 0x0FF5000, 0x3FFF0FF⟩,
   ⟨.rdIo, 0x0FF4800, 0x3FFF8FF⟩,
   ⟨.rdIo, 0x0FF4000, 0x3FFFCFF⟩,
   ⟨.rdIo, 0x0FF4600, 0x3FFFEFF⟩,
   ⟨.rdIo, 0x0FF4500, 0x3FFFFFF⟩]

/-- The table's rows of `WR`, in its order. -/
def wrRows : List (TableRow 26) :=
  [
   ⟨.wrRom, 0x1000000, 0x3800000⟩,
   ⟨.wrRam, 0x1800000, 0x3C00000⟩,
   ⟨.wrRam, 0x1C00000, 0x3E00000⟩,
   ⟨.wrUnmapped, 0x1E00000, 0x3F00000⟩,
   ⟨.wrUnmapped, 0x1F00000, 0x3F80000⟩,
   ⟨.wrUnmapped, 0x1F80000, 0x3FC0000⟩,
   ⟨.wrUnmapped, 0x1FC0000, 0x3FE0000⟩,
   ⟨.wrUnmapped, 0x1FE0000, 0x3FF0000⟩,
   ⟨.wrLy, 0x1FF4400, 0x3FFFF00⟩,
   ⟨.wrIo, 0x1FF8000, 0x3FF8000⟩,
   ⟨.wrIo, 0x1FF0000, 0x3FFC000⟩,
   ⟨.wrIo, 0x1FF6000, 0x3FFE000⟩,
   ⟨.wrIo, 0x1FF5000, 0x3FFF000⟩,
   ⟨.wrIo, 0x1FF4800, 0x3FFF800⟩,
   ⟨.wrIo, 0x1FF4000, 0x3FFFC00⟩,
   ⟨.wrIo, 0x1FF4600, 0x3FFFE00⟩,
   ⟨.wrIo, 0x1FF4500, 0x3FFFF00⟩]

/-- The table's rows of format B, in its order. -/
def busRows : List (TableRow 26) :=
  rdRows ++ wrRows ++
  [
   ⟨.busStep, 0x2000000, 0x3FFFFFF⟩,
   ⟨.busReset, 0x3000000, 0x3FFFFFF⟩]

/-- The table's rows of format K, in its order. -/
def bankRows : List (TableRow 17) :=
  [
   ⟨.bankGet, 0x00000, 0x100FF⟩,
   ⟨.bankSet, 0x10000, 0x10000⟩]

/-- The table's rows of format W, in its order. -/
def waveRows : List (TableRow 20) :=
  [
   ⟨.wStep, 0x00000, 0xFFFFF⟩,
   ⟨.wSample, 0x10000, 0xFFFFF⟩,
   ⟨.wRamrd, 0x20000, 0xFFF00⟩,
   ⟨.wRamwr, 0x30000, 0xF0000⟩,
   ⟨.wStart, 0x40000, 0xFFFFF⟩,
   ⟨.wDiv, 0x50000, 0xFFFFF⟩,
   ⟨.wSetdiv, 0x60000, 0xF0000⟩,
   ⟨.wSetmode, 0x70000, 0xFFFFE⟩,
   ⟨.wSetlen, 0x80000, 0xFFF00⟩,
   ⟨.wSeten, 0x90000, 0xFFFFE⟩,
   ⟨.wSetlvl, 0xA0000, 0xFFFFC⟩]

/-! ### The host's view of a table word -/

/-- The operation a command word stands for, if it is legal. -/
def legalInstr (c : Command) : Option Instr :=
  match decodeCommand c with
  | .legal i => some i
  | .illegal _ => none

/-- The command a word of `nbits` bits stands for. The table names no port, so the length must tell it
(DESIGN CHOICE, log 9): 26 bits, or more than 24, is a BUS word; 17 bits a BANK word; 20 bits a WAVE word.
With any other length the word is a WAVE word if it is a legal one, and a BANK word otherwise. -/
def tableCommand (nbits w : Nat) : Option Command :=
  if nbits = 26 ∨ 24 < nbits then
    if w < 2 ^ 26 then some (.bus (BitVec.ofNat 26 w)) else none
  else if nbits = 17 then
    if w < 2 ^ 17 then some (.bank (BitVec.ofNat 17 w)) else none
  else if nbits = 20 then
    if w < 2 ^ 20 then some (.wave (BitVec.ofNat 20 w)) else none
  else if w < 2 ^ 20 ∧ (legalInstr (.wave (BitVec.ofNat 20 w))).isSome then
    some (.wave (BitVec.ofNat 20 w))
  else if w < 2 ^ 17 then some (.bank (BitVec.ofNat 17 w))
  else none

/-- The operation the decoder reads from a word of the opcode table. -/
def decodeTableWord (nbits w : Nat) : Option Instr :=
  match tableCommand nbits w with
  | some c => legalInstr c
  | none => none

end Sys2Proof
end

