-- ==== Sys2Proof/Machine/Operands.lean ====
section
/-! DEFINITION. The operands whose range is checked at execution and not at decode (spec/30_encoding.md R81).
Every other operand is the field of the command word as it stands (R80). -/

namespace Sys2Proof.Machine

/-- The table entry an index names, if there is one: 0..31 (R143, R144). -/
def tableIndex (index : Byte) : Option (Fin 32) :=
  if h : index.toNat < 32 then some ⟨index.toNat, h⟩ else none

/-- The divider an operand gives, if it is in range: `v[10:0]` for `v < 0x800` (R145). -/
def dividerOperand (v : BitVec 16) : Option (BitVec 11) :=
  if v.toNat < 0x800 then some (v.extractLsb' 0 11) else none

/-- `(256 - len) * 0x4000`, the tick budget of a length, computed without truncation (R147, R158). -/
def lengthBudget (len : Byte) : BitVec 23 := BitVec.ofNat 23 ((256 - len.toNat) * 0x4000)

/-- `2 * (0x800 - divider)`, the reload value of the period countdown (R137, R138). -/
def reloadValue (d : BitVec 11) : BitVec 13 := BitVec.ofNat 13 (2 * (0x800 - d.toNat))

/-- `zext_16(divider)` (R79, R151). -/
def dividerResult (d : BitVec 11) : BitVec 16 := d.setWidth 16

/-- `Attenuate(s, level)`: truncating division, no rounding (R142). -/
def attenuate (s : Byte) : Level → Byte
  | .mute => 0#8
  | .full => s
  | .half => BitVec.ofNat 8 (s.toNat / 2)
  | .quarter => BitVec.ofNat 8 (s.toNat / 4)

end Sys2Proof.Machine
end

