-- ==== Sys2Proof/Machine/Flags.lean ====
section
/-! DEFINITION. The status bits of the block and what is computed from them (spec/10_state.md R33): the three
one-bit fields of the Wave Channel, and the conditions `W.STEP` and `W.SAMPLE` test. There are no condition
codes. The fourth flag, the fatal latch, is `raiseFatal` and `unlessFatal` of Ops. -/

namespace Sys2Proof.Machine

/-- `W.running <- b`: to true by `W.START`, to false by `W.STEP` (R22). -/
def Wave.setRunning (w : Wave) (b : Bool) : Wave := { w with running := b }

/-- `W.enabled <- b`: by `W.SETEN` only (R23). -/
def Wave.setEnabled (w : Wave) (b : Bool) : Wave := { w with enabled := b }

/-- `W.mode <- m`: by `W.SETMODE` only (R28). -/
def Wave.setMode (w : Wave) (m : Mode) : Wave := { w with mode := m }

/-- The output gate of `W.SAMPLE`: running and enabled (R141). -/
def Wave.gateOpen (w : Wave) : Bool := w.running && w.enabled

/-- The budget of a Counter-mode run is used up (R137 clause (b)). -/
def Wave.exhausted (w : Wave) : Bool := w.mode = .counter ∧ w.remaining = 0#23

end Sys2Proof.Machine
end

