-- ==== Sys2Proof/Machine/Bus.lean ====
section
/-! DEFINITION. The BUS operations, one definition per form (spec/40_bus_dispatcher.md). The forms take the
bus address; an address that is not of the form is never decoded to it (log 10). -/

namespace Sys2Proof.Machine

/-- `RD.ROM` (R98): `return ROM[addr]`. -/
def execRdRom (addr : Addr) (s : State) : Result :=
  unlessFatal s fun s => done (.byte (s.romByte addr.toNat)) s

/-- `RD.RAM` (R99): `return RAM[addr - 0x8000]`. -/
def execRdRam (addr : Addr) (s : State) : Result :=
  unlessFatal s fun s => done (.byte (s.ramCell (ramOffset addr))) s

/-- `RD.UNMAPPED` (R100): `raise Fatal(0x01, addr)`. -/
def execRdUnmapped (addr : Addr) (s : State) : Result :=
  unlessFatal s fun s => raiseFatal (.unmappedRead addr) s

/-- `RD.LY` (R102): `return vline(V)`, never the stored cell, and no diagnostic. -/
def execRdLy (s : State) : Result :=
  unlessFatal s fun s => done (.byte s.video.vline) s

/-- `RD.IO` (R101): `emit Diag(0x11, o); return BANK[o]`. -/
def execRdIo (addr : Addr) (s : State) : Result :=
  unlessFatal s fun s => doneDiag (.byte (s.bankCell (ioOffset addr))) (.ioReadUnhandled (ioOffset addr)) s

/-- `WR.ROM` (R104): the store discards the value and reports the attempt. -/
def execWrRom (addr : Addr) (value : Byte) (s : State) : Result :=
  unlessFatal s fun s => doneDiag .none (.romWrite addr value) s

/-- `WR.RAM` (R105): `RAM[addr - 0x8000] <- value`. -/
def execWrRam (addr : Addr) (value : Byte) (s : State) : Result :=
  unlessFatal s fun s => done .none (s.setRamCell (ramOffset addr) value)

/-- `WR.UNMAPPED` (R106): `raise Fatal(0x02, (addr, value))`. -/
def execWrUnmapped (addr : Addr) (value : Byte) (s : State) : Result :=
  unlessFatal s fun s => raiseFatal (.unmappedWrite addr value) s

/-- `WR.LY` (R108): `raise Fatal(0x03, value)`; spec/90_conflicts.md C1 decides that it is fatal. -/
def execWrLy (value : Byte) (s : State) : Result :=
  unlessFatal s fun s => raiseFatal (.scanlineWrite value) s

/-- `WR.IO` (R107): `emit Diag(0x12, (o, value)); BANK[o] <- value`. -/
def execWrIo (addr : Addr) (value : Byte) (s : State) : Result :=
  unlessFatal s fun s =>
    doneDiag .none (.ioWriteUnhandled (ioOffset addr) value) (s.setBankCell (ioOffset addr) value)

/-- `BUS.STEP` (R110): `V <- vstep(V)`. -/
def execBusStep (s : State) : Result :=
  unlessFatal s fun s => done .none (s.setVideo (Config.vstep s.video))

/-- `BUS.RESET` (R109): zeroes RAM and the bank, `V <- vreset`. It keeps the image, every field of the Wave
Channel and the latch (R209; spec/90_conflicts.md C2). -/
def execBusReset (s : State) : Result :=
  unlessFatal s fun s => done .none (s.ramReset.bankReset.setVideo Config.vreset)

end Sys2Proof.Machine
end

