-- ==== Sys2Proof/Machine/Channel.lean ====
section
/-! DEFINITION. The WAVE operations (spec/42_wave_channel.md). -/

namespace Sys2Proof.Machine

/-! ### The fields that are no flags -/

/-- `W.remaining <- n` (R24). -/
def Wave.setRemaining (w : Wave) (n : BitVec 23) : Wave := { w with remaining := n }

/-- `W.level <- l` (R25). -/
def Wave.setLevel (w : Wave) (l : Level) : Wave := { w with level := l }

/-- `W.divider <- d` (R26). -/
def Wave.setDivider (w : Wave) (d : BitVec 11) : Wave := { w with divider := d }

/-- `W.counter <- n` (R27). -/
def Wave.setCounter (w : Wave) (n : BitVec 13) : Wave := { w with counter := n }

/-- `W.index <- i` (R30). -/
def Wave.setIndex (w : Wave) (i : BitVec 5) : Wave := { w with index := i }

/-- `W.samples[i]` (R29). -/
def Wave.sampleAt (w : Wave) (i : Fin 32) : Byte := w.samples[i]

/-- `W.samples[i] <- a` (R29). -/
def Wave.setSample (w : Wave) (i : Fin 32) (a : Byte) : Wave := { w with samples := w.samples.set i a }

/-! ### `W.STEP` -/

/-- Clause (c) of R137: at 0 the countdown is reloaded and the phase advances, 31 to 0. -/
def Wave.reload (w : Wave) : Wave :=
  if w.counter = 0#13 then (w.setCounter (reloadValue w.divider)).setIndex (w.index + 1#5) else w

/-- Clause (d) of R137: the countdown goes down by one. -/
def Wave.countDown (w : Wave) : Wave := w.setCounter (w.counter - 1#13)

/-- The budget of clause (b) of R137: one tick less in `Counter` mode. -/
def Wave.spend (w : Wave) : Wave :=
  match w.mode with
  | .counter => w.setRemaining (w.remaining - 1#23)
  | .continuous => w

/-- One tick (R137): nothing while stopped (a); the exhaustion tick only stops the channel (b); otherwise the
budget is spent, (c) and (d). -/
def Wave.tick (w : Wave) : Wave :=
  if w.running = false then w
  else if w.exhausted then w.setRunning false
  else w.spend.reload.countDown

/-! ### `W.SAMPLE` -/

/-- The amplitude `W.SAMPLE` answers (R141): 0 unless running and enabled, else the entry at the phase,
attenuated. -/
def Wave.output (w : Wave) : Byte :=
  if w.gateOpen then attenuate (w.sampleAt w.index.toFin) w.level else 0#8

/-! ### The operations -/

/-- `W.STEP` (R137). -/
def execWStep (s : State) : Result :=
  unlessFatal s fun s => done .none (s.setWave s.wave.tick)

/-- `W.SAMPLE` (R141). -/
def execWSample (s : State) : Result :=
  unlessFatal s fun s => done (.byte s.wave.output) s

/-- `W.RAMRD index` (R143): the raw entry, neither gated nor attenuated; fatal 0x05 at 32 or more. -/
def execWRamrd (index : Byte) (s : State) : Result :=
  unlessFatal s fun s =>
    match tableIndex index with
    | none => raiseFatal (.waveIndexRange index) s
    | some i => done (.byte (s.wave.sampleAt i)) s

/-- `W.RAMWR index, amplitude` (R144): the whole amplitude is stored; fatal 0x05 at 32 or more. -/
def execWRamwr (index amplitude : Byte) (s : State) : Result :=
  unlessFatal s fun s =>
    match tableIndex index with
    | none => raiseFatal (.waveIndexRange index) s
    | some i => done .none (s.setWave (s.wave.setSample i amplitude))

/-- `W.START` (R146): `W.running <- true` and no other effect. -/
def execWStart (s : State) : Result :=
  unlessFatal s fun s => done .none (s.setWave (s.wave.setRunning true))

/-- `W.DIV` (R151): `return zext_16(W.divider)`. -/
def execWDiv (s : State) : Result :=
  unlessFatal s fun s => done (.half (dividerResult s.wave.divider)) s

/-- `W.SETDIV v` (R145): fatal 0x04 at 0x800 or more; the countdown in progress is not touched. -/
def execWSetdiv (v : BitVec 16) (s : State) : Result :=
  unlessFatal s fun s =>
    match dividerOperand v with
    | none => raiseFatal (.dividerRange v) s
    | some d => done .none (s.setWave (s.wave.setDivider d))

/-- `W.SETMODE m` (R148). -/
def execWSetmode (m : Mode) (s : State) : Result :=
  unlessFatal s fun s => done .none (s.setWave (s.wave.setMode m))

/-- `W.SETLEN len` (R147): `W.remaining <- (256 - len) * 0x4000`. -/
def execWSetlen (len : Byte) (s : State) : Result :=
  unlessFatal s fun s => done .none (s.setWave (s.wave.setRemaining (lengthBudget len)))

/-- `W.SETEN b` (R149). -/
def execWSeten (b : Bool) (s : State) : Result :=
  unlessFatal s fun s => done .none (s.setWave (s.wave.setEnabled b))

/-- `W.SETLVL level` (R150). -/
def execWSetlvl (level : Level) (s : State) : Result :=
  unlessFatal s fun s => done .none (s.setWave (s.wave.setLevel level))

end Sys2Proof.Machine
end

