-- ==== Sys2Proof/Machine/Dispatch.lean ====
section
/-! DEFINITION. One arm per operation: the meaning of its form. -/

namespace Sys2Proof.Machine

-- One operation applied to one state (spec/00_scope.md R5).
def exec (i : Instr) (s : State) : Host.Outcome State Fault Refusal :=
  match i with
  -- BUS port
  | .rdRom addr => Sys2Proof.Machine.execRdRom addr s
  | .rdRam addr => Sys2Proof.Machine.execRdRam addr s
  | .rdUnmapped addr => Sys2Proof.Machine.execRdUnmapped addr s
  | .rdLy => Sys2Proof.Machine.execRdLy s
  | .rdIo addr => Sys2Proof.Machine.execRdIo addr s
  | .wrRom addr value => Sys2Proof.Machine.execWrRom addr value s
  | .wrRam addr value => Sys2Proof.Machine.execWrRam addr value s
  | .wrUnmapped addr value => Sys2Proof.Machine.execWrUnmapped addr value s
  | .wrLy value => Sys2Proof.Machine.execWrLy value s
  | .wrIo addr value => Sys2Proof.Machine.execWrIo addr value s
  | .busStep => Sys2Proof.Machine.execBusStep s
  | .busReset => Sys2Proof.Machine.execBusReset s
  -- BANK port
  | .bankGet off => Sys2Proof.Machine.execBankGet off s
  | .bankSet off value => Sys2Proof.Machine.execBankSet off value s
  -- WAVE port
  | .wStep => Sys2Proof.Machine.execWStep s
  | .wSample => Sys2Proof.Machine.execWSample s
  | .wRamrd index => Sys2Proof.Machine.execWRamrd index s
  | .wRamwr index amplitude => Sys2Proof.Machine.execWRamwr index amplitude s
  | .wStart => Sys2Proof.Machine.execWStart s
  | .wDiv => Sys2Proof.Machine.execWDiv s
  | .wSetdiv v => Sys2Proof.Machine.execWSetdiv v s
  | .wSetmode m => Sys2Proof.Machine.execWSetmode m s
  | .wSetlen len => Sys2Proof.Machine.execWSetlen len s
  | .wSeten b => Sys2Proof.Machine.execWSeten b s
  | .wSetlvl level => Sys2Proof.Machine.execWSetlvl level s

end Sys2Proof.Machine
end

