-- ==== Sys2Proof/Machine/Fetch.lean ====
section
/-! DEFINITION. How the next operation comes to the machine: the agents' command words form one total order
(spec/20_memory.md R62), held in the field `pending`; a step takes the first (log 1). -/

namespace Sys2Proof.Machine

/-- The next command and the state in which it has been taken; none if no command is waiting. -/
def State.takeCommand (s : State) : Option (Command × State) :=
  match s.pending with
  | [] => none
  | c :: rest => some (c, s.setPending rest)

/-- No command is waiting: nothing happens, since every state change is caused by an operation (R183, R223).
DEDUCED, log 8. -/
def idle (s : State) : Result := .next s

/-- A reserved command word: `Fatal(0x06, word)`, after the check of the latch (R83, R177, R185). DESIGN
CHOICE, log 4. -/
def execIllegal (c : Command) (s : State) : Result :=
  unlessFatal s fun s => raiseFatal (.illegalCommand c) s

/-- A command presented before all that are waiting. -/
def State.present (s : State) (c : Command) : State := s.setPending (c :: s.pending)

end Sys2Proof.Machine
end

