-- ==== Sys2Proof/Machine/Step.lean ====
section
/-! DEFINITION. One step: the next command word is taken, decoded on its port and executed. -/

namespace Sys2Proof.Machine

/-- One step of the machine (spec/00_scope.md R4, R5). -/
def step (s : State) : Host.Outcome State Fault Refusal :=
  match s.takeCommand with
  | none => idle s
  | some (c, t) =>
    match decodeCommand c with
    | .legal i => exec i t
    | .illegal _ => execIllegal c t

/-- `s` with the command of a word of the opcode table presented first, so that the next step takes it. -/
def State.withFetchWord (s : State) (nbits w : Nat) : State :=
  match tableCommand nbits w with
  | some c => s.present c
  | none => s

end Sys2Proof.Machine
end

