-- ==== Sys2Proof/Machine/Access.lean ====
section
/-! DEFINITION. The two memory primitives of spec/20_memory.md: `MemRead(addr, 1)` is `RD addr` (R53, R97) and
`MemWrite(addr, 1, v)` is `WR addr, v` (R54, R103), the form chosen by the decode of the address. And `n`
operations of one kind in a row, the meaning of `W.STEPN n` and `BUS.STEPN n` (R87). -/

namespace Sys2Proof.Machine

/-- `RD addr` (R53, R97). -/
def memRead (addr : Addr) (s : State) : Result := exec (rdForm addr) s

/-- `WR addr, value` (R54, R103). -/
def memWrite (addr : Addr) (value : Byte) (s : State) : Result := exec (wrForm addr value) s

/-- `n` consecutive operations `i` (R87). -/
def execN : Nat → Instr → State → Result
  | 0, _, s => .next s
  | n + 1, i, s =>
    match exec i s with
    | .next t => execN n i t
    | .fault f => .fault f
    | .refused r => .refused r

end Sys2Proof.Machine
end

