-- ==== Sys2Proof/Safety.lean ====
section
/-! DEFINITION. The terms claims are stated in: what the block's own state is, apart from the model's input and
output; the invariant; what a run that has not failed is. -/

namespace Sys2Proof.Machine

/-- No fatal condition has occurred: the premise every claim about the block takes (spec/60_exceptions.md
R180). -/
abbrev State.live (s : State) : Prop := s.fatal = none

/-- The dispatcher's stores, the video subsystem and the image are the same (R7, R13). -/
abbrev State.sameDispatcher (s t : State) : Prop :=
  t.ram = s.ram ∧ t.bank = s.bank ∧ t.video = s.video ∧ t.rom = s.rom

/-- The two states hold the same record of R13 but for the latch, and the same image: what a fatal condition
leaves unchanged (R179). -/
abbrev State.sameButLatch (s t : State) : Prop := s.sameDispatcher t ∧ t.wave = s.wave

/-- The two states hold the same record of R13 and the same image. -/
abbrev State.sameBlock (s t : State) : Prop := s.sameButLatch t ∧ t.fatal = s.fatal

/-- `t` has answered the one outcome `o` beyond what `s` had, and the commands waiting are the same. -/
abbrev State.answered (s t : State) (o : OpOutcome) : Prop :=
  t.outcomes = o :: s.outcomes ∧ t.pending = s.pending

/-- The command word is that of the operation (R82). -/
abbrev readsAs (c : Command) (i : Instr) : Prop := decodeCommand c = .legal i

/-- The first line of the operation's pseudocode, `if fatal != None then raise Fatal(fatal)`: with the latch set
it answers the latched condition and changes nothing (R19, R180). -/
abbrev yieldsToLatch (i : Instr) : Prop :=
  ∀ (s : State) (f : Fatal), s.fatal = some f → exec i s = .next (s.answer (.fatal f))

/-- The answer of the latest operation. -/
def State.lastOutcome (s : State) : Option OpOutcome := s.outcomes.head?

/-- The image is listed in rising order below 0x8000 (R15). -/
abbrev State.romListed (s : State) : Prop :=
  s.rom.Pairwise (fun c d => c.1 < d.1) ∧ ∀ c ∈ s.rom, c.1 < 0x8000

/-- The invariants of the Wave Channel (R31). -/
abbrev Wave.Inv (w : Wave) : Prop :=
  w.divider.toNat ≤ 0x7FF ∧ w.index.toNat ≤ 31 ∧ w.counter.toNat ≤ 0xFFF ∧ w.remaining.toNat ≤ 0x400000

/-- The invariant of the block: the stores are canonical and of their sizes (R14, R16), the image is (R15),
and the Wave Channel's invariants hold (R31). -/
abbrev State.Inv (s : State) : Prop :=
  s.ram.wf 0x6000 ∧ s.bank.wf 0x100 ∧ s.romListed ∧ s.wave.Inv

/-- The RAM offset an operation stores to, computed as its meaning computes it; none for an operation that
stores no RAM byte of its own. `BUS.RESET`, which zeroes all of RAM, is stated apart. -/
def storesRam : Instr → Option Nat
  | .wrRam a _ => some (ramOffset a)
  | _ => none

/-- The bank cell an operation stores to, computed as its meaning computes it. `BUS.RESET` is stated apart. -/
def storesBank : Instr → Option Byte
  | .wrIo a _ => some (ioOffset a)
  | .bankSet off _ => some off
  | _ => none

/-- A diagnostic's own condition and info (R178), for the operation that reports it. -/
def reports : Instr → Option Diag
  | .wrRom a v => some (.romWrite a v)
  | .rdIo a => some (.ioReadUnhandled (ioOffset a))
  | .wrIo a v => some (.ioWriteUnhandled (ioOffset a) v)
  | _ => none

/-- The fatal condition an operation meets by itself (R177), if it meets one. -/
def raises : Instr → Option Fatal
  | .rdUnmapped a => some (.unmappedRead a)
  | .wrUnmapped a v => some (.unmappedWrite a v)
  | .wrLy v => some (.scanlineWrite v)
  | .wSetdiv v => if 0x800 ≤ v.toNat then some (.dividerRange v) else none
  | .wRamrd i => if 32 ≤ i.toNat then some (.waveIndexRange i) else none
  | .wRamwr i _ => if 32 ≤ i.toNat then some (.waveIndexRange i) else none
  | _ => none

end Sys2Proof.Machine
end

