-- ==== Sys2Proof/Certificates/Slice0/Obligations.lean ====
section
/-! DEFINITION. The statements about gb-rs CORE. The premise `s.fatal = none` is the one every claim about the
block takes (spec/60_exceptions.md R180); what happens without it is `yieldsToLatch`, the first line of every operation's
pseudocode (the latch is decision D7 of the spec, the layouts of the command words are D3 to D5). -/

open Sys2Proof Sys2Proof.Machine

/-! ### Command words -/

/-- The worked encodings of spec/30_encoding.md section 7, both ways. The word layouts are decisions D3 to D5
of the spec. -/
def Obligations.WorkedEncodings : Prop :=
  ∀ p ∈ ([(rdForm 0xFF44, .bus 0x0FF4400), (wrForm 0x8000 0x12, .bus 0x1800012),
      (wrForm 0xFFFF 0xFF, .bus 0x1FFFFFF), (.busStep, .bus 0x2000000), (.busReset, .bus 0x3000000),
      (.bankSet 0x44 0x90, .bank 0x14490), (.bankGet 0x0F, .bank 0x00F00), (.wStep, .wave 0x00000),
      (.wSample, .wave 0x10000), (.wRamrd 3, .wave 0x20003), (.wRamwr 3 12, .wave 0x30C03),
      (.wStart, .wave 0x40000), (.wDiv, .wave 0x50000), (.wSetdiv 0x7FF, .wave 0x607FF),
      (.wSetdiv 0x800, .wave 0x60800), (.wSetmode .counter, .wave 0x70001), (.wSetlen 255, .wave 0x800FF),
      (.wSeten true, .wave 0x90001), (.wSetlvl .quarter, .wave 0xA0003)] : List (Instr × Command)),
    encode p.1 = p.2 ∧ decodeCommand p.2 = .legal p.1

/-- Decoding the word of a well-formed operation gives the operation back, for every operation and every value
of its operands (P6 of spec/95_test_vectors.md; the layouts are decisions D3 to D5). -/
def Obligations.DecodeOfEncodeIsTheOperation : Prop :=
  ∀ i : Instr, i.WellFormed → decodeCommand (encode i) = .legal i

/-- A legal word decodes to a well-formed operation, and is the only word of that operation (decision D3:
decode then encode is the identity). -/
def Obligations.LegalWordEncodesBack : Prop :=
  ∀ (c : Command) (i : Instr), decodeCommand c = .legal i → i.WellFormed ∧ encode i = c

/-- The reserved words are exactly those the spec lists (decision D6), with bits written as numbers: the
field `v[hi:lo]` of `w` is `w / 2^lo % 2^(hi-lo+1)`. -/
def Obligations.ReservedWordsAreExactlyTheListed : Prop :=
  (∀ w : BitVec 26, (∃ r, decodeCommand (.bus w) = .illegal r) ↔
    (w.toNat / 2 ^ 24 = 0 ∧ w.toNat % 2 ^ 8 ≠ 0) ∨ (2 ≤ w.toNat / 2 ^ 24 ∧ w.toNat % 2 ^ 24 ≠ 0)) ∧
  (∀ w : BitVec 17, (∃ r, decodeCommand (.bank w) = .illegal r) ↔
    w.toNat / 2 ^ 16 = 0 ∧ w.toNat % 2 ^ 8 ≠ 0) ∧
  (∀ w : BitVec 20, (∃ r, decodeCommand (.wave w) = .illegal r) ↔
    0xB ≤ w.toNat / 2 ^ 16 ∨
    (w.toNat / 2 ^ 16 ∈ [0x0, 0x1, 0x4, 0x5] ∧ w.toNat % 2 ^ 16 ≠ 0) ∨
    (w.toNat / 2 ^ 16 ∈ [0x2, 0x8] ∧ w.toNat / 2 ^ 8 % 2 ^ 8 ≠ 0) ∨
    (w.toNat / 2 ^ 16 ∈ [0x7, 0x9] ∧ w.toNat / 2 % 2 ^ 15 ≠ 0) ∨
    (w.toNat / 2 ^ 16 = 0xA ∧ w.toNat / 2 ^ 2 % 2 ^ 14 ≠ 0))

/-- The opcode table and the decoder agree: a row that selects a word has the mnemonic of the operation the
word decodes to, a word no row selects is reserved, no two rows select one word, and the rows are the 49 of
the table (decision D3). -/
def Obligations.OpcodeTableRowsSelectTheDecodedForm : Prop :=
  (∀ w : BitVec 26, (∀ r ∈ busRows, r.selects w → ∃ i, decodeCommand (.bus w) = .legal i ∧ i.form = r.form) ∧
    (∀ i, decodeCommand (.bus w) = .legal i → ∃ r ∈ busRows, r.selects w) ∧
    ∀ r ∈ busRows, ∀ q ∈ busRows, r.selects w → q.selects w → r = q) ∧
  (∀ w : BitVec 17, (∀ r ∈ bankRows, r.selects w → ∃ i, decodeCommand (.bank w) = .legal i ∧ i.form = r.form) ∧
    (∀ i, decodeCommand (.bank w) = .legal i → ∃ r ∈ bankRows, r.selects w) ∧
    ∀ r ∈ bankRows, ∀ q ∈ bankRows, r.selects w → q.selects w → r = q) ∧
  (∀ w : BitVec 20, (∀ r ∈ waveRows, r.selects w → ∃ i, decodeCommand (.wave w) = .legal i ∧ i.form = r.form) ∧
    (∀ i, decodeCommand (.wave w) = .legal i → ∃ r ∈ waveRows, r.selects w) ∧
    ∀ r ∈ waveRows, ∀ q ∈ waveRows, r.selects w → q.selects w → r = q) ∧
  busRows.length + bankRows.length + waveRows.length = 49

/-- `Decode(addr)`, first match wins: R50 and R96. -/
def Obligations.AddressDecodeFirstMatchWins : Prop :=
  ∀ a : Addr,
    (a.toNat < 0x8000 → decodeAddr a = .rom a.toNat) ∧
    (0x8000 ≤ a.toNat → a.toNat < 0xE000 →
      decodeAddr a = .ram (ramOffset a) ∧ ramOffset a = a.toNat - 0x8000 ∧ ramOffset a ≤ 0x5FFF) ∧
    (0xE000 ≤ a.toNat → a.toNat < 0xFF00 → decodeAddr a = .unmapped) ∧
    (0xFF00 ≤ a.toNat → decodeAddr a = .io (ioOffset a) ∧ (ioOffset a).toNat = a.toNat - 0xFF00)

/-! ### The step -/

/-- A step runs the decoded operation: the first waiting command is taken and its operation executed. -/
def Obligations.StepRunsTheDecodedOperation : Prop :=
  ∀ (s : State) (c : Command) (rest : List Command) (i : Instr),
    s.pending = c :: rest → decodeCommand c = .legal i → step s = exec i (s.setPending rest)

/-- A reserved word ends in `Fatal(0x06, word)` and changes nothing but the latch. The model's choice,
log 4: decision D6 of the spec puts a refusal at the boundary first and allows this outcome. -/
def Obligations.StepOnReservedWordIsFatal : Prop :=
  ∀ (s : State) (c : Command) (rest : List Command) (r : Illegal),
    s.fatal = none → s.pending = c :: rest → decodeCommand c = .illegal r →
    ∃ t, step s = .next t ∧ t.outcomes = .fatal (.illegalCommand c) :: s.outcomes ∧
      (Fatal.illegalCommand c).code = 0x06 ∧ t.fatal = some (.illegalCommand c) ∧ t.pending = rest ∧
      s.sameButLatch t

/-- With no command waiting a step changes nothing. The model's reading: log 8. -/
def Obligations.StepWithNothingPendingChangesNothing : Prop :=
  ∀ s : State, s.pending = [] → step s = .next s

/-- The state right after power-on: the column 'at power-on' of the spec's table. The Wave Channel's values are
decision D15 (log 7), the image is open (D10, log 5), and so is the video subsystem (D12, log 6). -/
def Obligations.PowerOnState : Prop :=
  (∀ o, State.reset.ramCell o = 0x00) ∧ (∀ off, State.reset.bankCell off = 0x00) ∧
  (∀ o, State.reset.romByte o = Config.romByte o) ∧
  State.reset.video = Config.vreset ∧ State.reset.fatal = none ∧
  State.reset.wave.running = false ∧ State.reset.wave.enabled = false ∧ State.reset.wave.remaining = 0 ∧
  State.reset.wave.level = .mute ∧ State.reset.wave.divider = 0 ∧ State.reset.wave.counter = 0 ∧
  State.reset.wave.mode = .continuous ∧ (∀ k, State.reset.wave.sampleAt k = 0) ∧ State.reset.wave.index = 0

/-! ### RD -/

/-- R97: `RD addr` yields to the latch, else is the form of the decode's target, with offset 0x44 apart from the
other I/O offsets; no form writes any state, but for the latch of the unmapped one, which is `Fatal(0x01, addr)`;
the `.IO` form, and no other, answers with `Diag(0x11, offset)`. `RD` is `memRead`. -/
def Obligations.RdIsTheFormOfTheDecodedTarget : Prop :=
  ∀ a : Addr, readsAs (.bus (0b00#2 ++ a ++ 0#8)) (rdForm a) ∧ yieldsToLatch (rdForm a) ∧
    (∀ s o, decodeAddr a = .rom o → memRead a s = exec (.rdRom a) s) ∧
    (∀ s o, decodeAddr a = .ram o → memRead a s = exec (.rdRam a) s) ∧
    (∀ s, decodeAddr a = .unmapped → memRead a s = exec (.rdUnmapped a) s) ∧
    (∀ s, decodeAddr a = .io 0x44#8 → memRead a s = exec .rdLy s) ∧
    (∀ s o, decodeAddr a = .io o → o ≠ 0x44#8 → memRead a s = exec (.rdIo a) s) ∧
    (Fatal.unmappedRead a).code = 0x01 ∧ (Diag.ioReadUnhandled (ioOffset a)).code = 0x11 ∧
    ∀ s, s.fatal = none → ∃ t, memRead a s = .next t ∧ s.sameButLatch t ∧
      (InUnmapped a → s.answered t (.fatal (.unmappedRead a)) ∧ t.fatal = some (.unmappedRead a)) ∧
      (InIo a → t.fatal = none ∧
        ∃ b : Byte, s.answered t (.okDiag (.byte b) (.ioReadUnhandled (ioOffset a)))) ∧
      (¬ InUnmapped a → ¬ InIo a → t.fatal = none ∧ ∃ b : Byte, s.answered t (.ok (.byte b)))

/-- R98: `RD.ROM` answers the image byte at the address, changes nothing, and no write attempt changes what it
answers. -/
def Obligations.RdRomAnswersTheImageByte : Prop :=
  ∀ (s : State) (a : Addr), s.fatal = none → a.toNat < 0x8000 →
    readsAs (.bus (0b00#2 ++ a ++ 0#8)) (.rdRom a) ∧
    exec (.rdRom a) s = .next (s.answer (.ok (.byte (s.romByte a.toNat)))) ∧
    ∀ (b : Addr) (v : Byte) (u : State), memWrite b v s = .next u → u.romByte a.toNat = s.romByte a.toNat

/-- R99: `RD.RAM` answers the RAM cell at `addr - 0x8000` and changes nothing; at power-on and after
`BUS.RESET` every cell reads 0x00. -/
def Obligations.RdRamAnswersTheCell : Prop :=
  ∀ (s : State) (a : Addr), s.fatal = none → 0x8000 ≤ a.toNat → a.toNat < 0xE000 →
    readsAs (.bus (0b00#2 ++ a ++ 0#8)) (.rdRam a) ∧ ramOffset a = a.toNat - 0x8000 ∧
    exec (.rdRam a) s = .next (s.answer (.ok (.byte (s.ramCell (ramOffset a))))) ∧
    State.reset.ramCell (ramOffset a) = 0x00 ∧
    ∀ t, exec .busReset s = .next t → t.ramCell (ramOffset a) = 0x00

/-- R100: `RD.UNMAPPED` is `Fatal(0x01, addr)`; nothing but the latch changes and no diagnostic is added. -/
def Obligations.RdUnmappedIsFatal : Prop :=
  ∀ (s : State) (a : Addr), s.fatal = none → 0xE000 ≤ a.toNat → a.toNat ≤ 0xFEFF →
    readsAs (.bus (0b00#2 ++ a ++ 0#8)) (.rdUnmapped a) ∧ (Fatal.unmappedRead a).code = 0x01 ∧
    ∃ t, exec (.rdUnmapped a) s = .next t ∧ s.answered t (.fatal (.unmappedRead a)) ∧ s.sameButLatch t

/-- R101: `RD.IO` answers the stored cell with `Diag(0x11, offset)` and changes nothing; the stored cell is what
`WR` or `BANK.SET` stored last, and 0x00 at power-on. -/
def Obligations.RdIoAnswersTheCellWithADiagnostic : Prop :=
  ∀ (s : State) (a : Addr), s.fatal = none → 0xFF00 ≤ a.toNat → a ≠ 0xFF44#16 →
    readsAs (.bus (0b00#2 ++ a ++ 0#8)) (.rdIo a) ∧ (ioOffset a).toNat = a.toNat - 0xFF00 ∧ (Diag.ioReadUnhandled (ioOffset a)).code = 0x11 ∧
    exec (.rdIo a) s =
      .next (s.answer (.okDiag (.byte (s.bankCell (ioOffset a))) (.ioReadUnhandled (ioOffset a)))) ∧
    State.reset.bankCell (ioOffset a) = 0x00 ∧
    ∀ (v : Byte) (t : State), exec (.wrIo a v) s = .next t ∨ exec (.bankSet (ioOffset a) v) s = .next t →
      exec (.rdIo a) t = .next (t.answer (.okDiag (.byte v) (.ioReadUnhandled (ioOffset a))))

/-- R102: `RD 0xFF44` answers the current line, whatever cell 0x44 holds, without a diagnostic, and changes
nothing; it answers the same until a `BUS.STEP` or a `BUS.RESET`. -/
def Obligations.RdLyAnswersTheCurrentLine : Prop :=
  readsAs (.bus 0x0FF4400) .rdLy ∧
  ∀ s : State, s.fatal = none →
    exec .rdLy s = .next (s.answer (.ok (.byte s.video.vline))) ∧
    (∀ v : Byte, exec .rdLy (s.setBankCell 0x44#8 v) =
      .next ((s.setBankCell 0x44#8 v).answer (.ok (.byte s.video.vline)))) ∧
    ∀ (i : Instr) (t : State), i ≠ .busStep → i ≠ .busReset → exec i s = .next t → t.fatal = none →
      exec .rdLy t = .next (t.answer (.ok (.byte s.video.vline)))

/-! ### WR -/

/-- R103: `WR addr, value` yields to the latch, else is the form of the decode's target, with offset 0x44 apart
from the other I/O offsets; it writes at most one byte, and has no response. The unmapped form is
`Fatal(0x02, (addr, value))`, the one of 0xFF44 `Fatal(0x03, value)`; the `.ROM` form reports
`Diag(0x10, (addr, value))` and the `.IO` form `Diag(0x12, (offset, value))`. `WR` is `memWrite`. -/
def Obligations.WrIsTheFormOfTheDecodedTarget : Prop :=
  ∀ (a : Addr) (v : Byte), readsAs (.bus (0b01#2 ++ a ++ v)) (wrForm a v) ∧ yieldsToLatch (wrForm a v) ∧
    (∀ s o, decodeAddr a = .rom o → memWrite a v s = exec (.wrRom a v) s) ∧
    (∀ s o, decodeAddr a = .ram o → memWrite a v s = exec (.wrRam a v) s) ∧
    (∀ s, decodeAddr a = .unmapped → memWrite a v s = exec (.wrUnmapped a v) s) ∧
    (∀ s, decodeAddr a = .io 0x44#8 → memWrite a v s = exec (.wrLy v) s) ∧
    (∀ s o, decodeAddr a = .io o → o ≠ 0x44#8 → memWrite a v s = exec (.wrIo a v) s) ∧
    (Fatal.unmappedWrite a v).code = 0x02 ∧ (Fatal.scanlineWrite v).code = 0x03 ∧
    (Diag.romWrite a v).code = 0x10 ∧ (Diag.ioWriteUnhandled (ioOffset a) v).code = 0x12 ∧
    ∀ s, s.fatal = none → ∃ t, memWrite a v s = .next t ∧
      t.video = s.video ∧ t.rom = s.rom ∧ t.wave = s.wave ∧
      (InRom a → s.answered t (.okDiag .none (.romWrite a v)) ∧ s.sameBlock t) ∧
      (InRam a → s.answered t (.ok .none) ∧ t.fatal = none ∧ t.bank = s.bank ∧
        ∀ o, o ≠ ramOffset a → t.ramCell o = s.ramCell o) ∧
      (InUnmapped a → s.answered t (.fatal (.unmappedWrite a v)) ∧ t.fatal = some (.unmappedWrite a v) ∧
        s.sameButLatch t) ∧
      (a = 0xFF44#16 → s.answered t (.fatal (.scanlineWrite v)) ∧ t.fatal = some (.scanlineWrite v) ∧
        s.sameButLatch t) ∧
      (InIo a → s.answered t (.okDiag .none (.ioWriteUnhandled (ioOffset a) v)) ∧ t.fatal = none ∧ t.ram = s.ram ∧
        ∀ off, off ≠ ioOffset a → t.bankCell off = s.bankCell off)

/-- R104: `WR.ROM` discards the value, reports `Diag(0x10, (addr, value))` and changes nothing. -/
def Obligations.WrRomDiscardsAndReports : Prop :=
  ∀ (s : State) (a : Addr) (v : Byte), s.fatal = none → a.toNat < 0x8000 →
    readsAs (.bus (0b01#2 ++ a ++ v)) (.wrRom a v) ∧ (Diag.romWrite a v).code = 0x10 ∧
    ∃ t, exec (.wrRom a v) s = .next t ∧ s.answered t (.okDiag .none (.romWrite a v)) ∧ s.sameBlock t ∧
      memRead a t = .next (t.answer (.ok (.byte (s.romByte a.toNat))))

/-- R105: `WR.RAM` stores the byte in the RAM cell at `addr - 0x8000` and changes nothing else; a read of the
address then answers it. -/
def Obligations.WrRamStoresTheByte : Prop :=
  ∀ (s : State) (a : Addr) (v : Byte), s.fatal = none → 0x8000 ≤ a.toNat → a.toNat < 0xE000 →
    readsAs (.bus (0b01#2 ++ a ++ v)) (.wrRam a v) ∧ ramOffset a = a.toNat - 0x8000 ∧
    ∃ t, exec (.wrRam a v) s = .next t ∧ s.answered t (.ok .none) ∧
      t.ramCell (ramOffset a) = v ∧ (∀ o, o ≠ ramOffset a → t.ramCell o = s.ramCell o) ∧
      t.bank = s.bank ∧ t.video = s.video ∧ t.rom = s.rom ∧ t.wave = s.wave ∧ t.fatal = none ∧
      memRead a t = .next (t.answer (.ok (.byte v)))

/-- R106: `WR.UNMAPPED` is `Fatal(0x02, (addr, value))`; nothing is stored. -/
def Obligations.WrUnmappedIsFatal : Prop :=
  ∀ (s : State) (a : Addr) (v : Byte), s.fatal = none → 0xE000 ≤ a.toNat → a.toNat ≤ 0xFEFF →
    readsAs (.bus (0b01#2 ++ a ++ v)) (.wrUnmapped a v) ∧ (Fatal.unmappedWrite a v).code = 0x02 ∧
    ∃ t, exec (.wrUnmapped a v) s = .next t ∧ s.answered t (.fatal (.unmappedWrite a v)) ∧ s.sameButLatch t

/-- R107: `WR.IO` stores the whole byte in the cell with `Diag(0x12, (offset, value))` and changes nothing
else. -/
def Obligations.WrIoStoresTheByteWithADiagnostic : Prop :=
  ∀ (s : State) (a : Addr) (v : Byte), s.fatal = none → 0xFF00 ≤ a.toNat → a ≠ 0xFF44#16 →
    readsAs (.bus (0b01#2 ++ a ++ v)) (.wrIo a v) ∧ (ioOffset a).toNat = a.toNat - 0xFF00 ∧
    (Diag.ioWriteUnhandled (ioOffset a) v).code = 0x12 ∧
    ∃ t, exec (.wrIo a v) s = .next t ∧ s.answered t (.okDiag .none (.ioWriteUnhandled (ioOffset a) v)) ∧
      t.bankCell (ioOffset a) = v ∧ (∀ off, off ≠ ioOffset a → t.bankCell off = s.bankCell off) ∧
      t.ram = s.ram ∧ t.video = s.video ∧ t.rom = s.rom ∧ t.wave = s.wave ∧ t.fatal = none

/-- R108: `WR 0xFF44, value` is `Fatal(0x03, value)` for every value; nothing is stored. -/
def Obligations.WrLyIsFatal : Prop :=
  ∀ (s : State) (v : Byte), s.fatal = none →
    readsAs (.bus (0b01#2 ++ 0xFF44#16 ++ v)) (.wrLy v) ∧ (Fatal.scanlineWrite v).code = 0x03 ∧
    ∃ t, exec (.wrLy v) s = .next t ∧ s.answered t (.fatal (.scanlineWrite v)) ∧ s.sameButLatch t

/-! ### BUS.RESET and BUS.STEP -/

/-- R109: `BUS.RESET` zeroes RAM and the bank and puts the video subsystem in `vreset`; the image, the Wave
Channel and the latch are kept; twice is the same as once, and at power-on it changes nothing. -/
def Obligations.BusResetRestoresPowerOnZero : Prop :=
  readsAs (.bus 0x3000000) .busReset ∧ yieldsToLatch .busReset ∧
  (∀ s : State, s.fatal = none →
    ∃ t, exec .busReset s = .next t ∧ s.answered t (.ok .none) ∧
      (∀ o, t.ramCell o = 0x00) ∧ (∀ off, t.bankCell off = 0x00) ∧ t.video = Config.vreset ∧
      t.rom = s.rom ∧ t.wave = s.wave ∧ t.fatal = none ∧
      (∃ u, exec .busReset t = .next u ∧ t.sameBlock u) ∧
      memRead 0xFF44#16 t = .next (t.answer (.ok (.byte Config.vreset.vline)))) ∧
  ∃ t, exec .busReset State.reset = .next t ∧ State.reset.sameBlock t

/-- R110: `BUS.STEP` advances the video subsystem by one tick and changes nothing else. -/
def Obligations.BusStepAdvancesTheVideoSubsystem : Prop :=
  readsAs (.bus 0x2000000) .busStep ∧ yieldsToLatch .busStep ∧
  ∀ s : State, s.fatal = none →
    ∃ t, exec .busStep s = .next t ∧ s.answered t (.ok .none) ∧ t.video = Config.vstep s.video ∧
      t.ram = s.ram ∧ t.bank = s.bank ∧ t.rom = s.rom ∧ t.wave = s.wave ∧ t.fatal = none

/-! ### BANK -/

/-- `BANK.GET` answers the stored cell, 0x44 included, without a diagnostic, and changes nothing. The read side
of the port is decision D21. -/
def Obligations.BankGetAnswersTheCell : Prop :=
  ∀ off : Byte, readsAs (.bank (0#1 ++ off ++ 0#8)) (.bankGet off) ∧ yieldsToLatch (.bankGet off) ∧
    ∀ s : State, s.fatal = none → exec (.bankGet off) s = .next (s.answer (.ok (.byte (s.bankCell off))))

/-- R128: `BANK.SET` stores the byte in exactly one cell, 0x44 included, without a diagnostic. -/
def Obligations.BankSetStoresOneCell : Prop :=
  ∀ off v : Byte, readsAs (.bank (1#1 ++ off ++ v)) (.bankSet off v) ∧ yieldsToLatch (.bankSet off v) ∧
    ∀ s : State, s.fatal = none → ∃ t, exec (.bankSet off v) s = .next t ∧ s.answered t (.ok .none) ∧
      t.bankCell off = v ∧ (∀ k, k ≠ off → t.bankCell k = s.bankCell k) ∧
      t.ram = s.ram ∧ t.video = s.video ∧ t.rom = s.rom ∧ t.wave = s.wave ∧ t.fatal = none

/-! ### WAVE -/

/-- R137: the four clauses of `W.STEP`, and what it never writes. -/
def Obligations.WStepClauses : Prop :=
  readsAs (.wave 0x00000) .wStep ∧ yieldsToLatch .wStep ∧
  ∀ s : State, s.fatal = none →
    ∃ t, exec .wStep s = .next t ∧ s.answered t (.ok .none) ∧ s.sameDispatcher t ∧ t.fatal = none ∧
      t.wave.enabled = s.wave.enabled ∧ t.wave.level = s.wave.level ∧ t.wave.divider = s.wave.divider ∧
      t.wave.mode = s.wave.mode ∧ t.wave.samples = s.wave.samples ∧
      (s.wave.running = false → t.wave = s.wave) ∧
      (s.wave.running = true → s.wave.mode = .counter → s.wave.remaining = 0#23 →
        t.wave = { s.wave with running := false }) ∧
      (s.wave.running = true → (s.wave.mode = .counter → s.wave.remaining ≠ 0#23) →
        t.wave.running = true ∧
        (s.wave.mode = .counter → t.wave.remaining.toNat = s.wave.remaining.toNat - 1) ∧
        (s.wave.mode = .continuous → t.wave.remaining = s.wave.remaining) ∧
        (s.wave.counter = 0#13 → t.wave.counter.toNat = 2 * (0x800 - s.wave.divider.toNat) - 1 ∧
          t.wave.index.toNat = (s.wave.index.toNat + 1) % 32) ∧
        (s.wave.counter ≠ 0#13 → t.wave.counter.toNat = s.wave.counter.toNat - 1 ∧ t.wave.index = s.wave.index))

/-- R141 and R142: `W.SAMPLE` answers 0 unless running and enabled, else the entry at the phase through the
output-level transform, which divides truncating; it changes nothing. -/
def Obligations.WSampleAnswersTheAttenuatedEntry : Prop :=
  readsAs (.wave 0x10000) .wSample ∧ yieldsToLatch .wSample ∧
  (∀ s : State, s.fatal = none →
    ∃ b : Byte, exec .wSample s = .next (s.answer (.ok (.byte b))) ∧
      (¬ (s.wave.running = true ∧ s.wave.enabled = true) → b = 0) ∧
      (s.wave.running = true → s.wave.enabled = true →
        b = attenuate (s.wave.sampleAt s.wave.index.toFin) s.wave.level)) ∧
  ∀ x : Byte, attenuate x .mute = 0 ∧ attenuate x .full = x ∧
    (attenuate x .half).toNat = x.toNat / 2 ∧ (attenuate x .quarter).toNat = x.toNat / 4 ∧
    ∀ l, (attenuate x l).toNat ≤ x.toNat

/-- `W.RAMRD` answers the raw entry for an index of 0..31 and changes nothing; at 32 or more it is
`Fatal(0x05, index)`, which is decision D17. -/
def Obligations.WRamrdAnswersTheEntry : Prop :=
  ∀ i : Byte, readsAs (.wave (0x2#4 ++ 0#8 ++ i)) (.wRamrd i) ∧ yieldsToLatch (.wRamrd i) ∧
    ∀ s : State, s.fatal = none →
    (∀ h : i.toNat < 32, exec (.wRamrd i) s = .next (s.answer (.ok (.byte (s.wave.sampleAt ⟨i.toNat, h⟩))))) ∧
    (32 ≤ i.toNat → (Fatal.waveIndexRange i).code = 0x05 ∧
      ∃ t, exec (.wRamrd i) s = .next t ∧ s.answered t (.fatal (.waveIndexRange i)) ∧ s.sameButLatch t)

/-- `W.RAMWR` stores the whole amplitude in one entry for an index of 0..31, and a `W.RAMRD` then answers it; at
32 or more it is `Fatal(0x05, index)` and the table is unchanged, which is decision D17. -/
def Obligations.WRamwrStoresTheEntry : Prop :=
  ∀ i a : Byte, readsAs (.wave (0x3#4 ++ a ++ i)) (.wRamwr i a) ∧ yieldsToLatch (.wRamwr i a) ∧
    ∀ s : State, s.fatal = none →
    (∀ h : i.toNat < 32, ∃ t, exec (.wRamwr i a) s = .next t ∧ s.answered t (.ok .none) ∧
      t.wave = { s.wave with samples := t.wave.samples } ∧ t.wave.sampleAt ⟨i.toNat, h⟩ = a ∧
      (∀ k : Fin 32, k.val ≠ i.toNat → t.wave.sampleAt k = s.wave.sampleAt k) ∧
      s.sameDispatcher t ∧ t.fatal = none ∧ exec (.wRamrd i) t = .next (t.answer (.ok (.byte a)))) ∧
    (32 ≤ i.toNat → ∃ t, exec (.wRamwr i a) s = .next t ∧ s.answered t (.fatal (.waveIndexRange i)) ∧
      s.sameButLatch t)

/-- R145: `W.SETDIV` writes the divider and nothing else for a value below 0x800; at 0x800 or more it is
`Fatal(0x04, v)` and the divider keeps its value. -/
def Obligations.WSetdivWritesTheDivider : Prop :=
  ∀ v : BitVec 16, readsAs (.wave (0x6#4 ++ v)) (.wSetdiv v) ∧ yieldsToLatch (.wSetdiv v) ∧
    ∀ s : State, s.fatal = none →
    (v.toNat < 0x800 → ∃ t, exec (.wSetdiv v) s = .next t ∧ s.answered t (.ok .none) ∧
      t.wave = { s.wave with divider := v.extractLsb' 0 11 } ∧ t.wave.divider.toNat = v.toNat ∧
      s.sameDispatcher t ∧ t.fatal = none) ∧
    (0x800 ≤ v.toNat → (Fatal.dividerRange v).code = 0x04 ∧
      ∃ t, exec (.wSetdiv v) s = .next t ∧ s.answered t (.fatal (.dividerRange v)) ∧ s.sameButLatch t)

/-- `W.START` sets `running` and has no other effect, whatever the channel's state. That it has no other effect
is decision D27. -/
def Obligations.WStartSetsRunningOnly : Prop :=
  readsAs (.wave 0x40000) .wStart ∧ yieldsToLatch .wStart ∧
  ∀ s : State, s.fatal = none →
    ∃ t, exec .wStart s = .next t ∧ s.answered t (.ok .none) ∧ t.wave = { s.wave with running := true } ∧
      s.sameDispatcher t ∧ t.fatal = none

/-- R147: `W.SETLEN` sets the budget to `(256 - len) * 0x4000`, untruncated, and writes nothing else. -/
def Obligations.WSetlenLoadsTheBudget : Prop :=
  ∀ len : Byte, readsAs (.wave (0x8#4 ++ 0#8 ++ len)) (.wSetlen len) ∧ yieldsToLatch (.wSetlen len) ∧
    ∀ s : State, s.fatal = none → ∃ t, exec (.wSetlen len) s = .next t ∧ s.answered t (.ok .none) ∧
      t.wave.remaining.toNat = (256 - len.toNat) * 0x4000 ∧
      t.wave = { s.wave with remaining := t.wave.remaining } ∧ s.sameDispatcher t ∧ t.fatal = none

/-- R148: `W.SETMODE` sets the mode and writes nothing else. -/
def Obligations.WSetmodeWritesTheMode : Prop :=
  readsAs (.wave 0x70000) (.wSetmode .continuous) ∧ readsAs (.wave 0x70001) (.wSetmode .counter) ∧
  ∀ m : Mode, yieldsToLatch (.wSetmode m) ∧
    ∀ s : State, s.fatal = none → ∃ t, exec (.wSetmode m) s = .next t ∧ s.answered t (.ok .none) ∧ t.wave = { s.wave with mode := m } ∧
      s.sameDispatcher t ∧ t.fatal = none

/-- R149: `W.SETEN` sets the output gate and writes nothing else. -/
def Obligations.WSetenWritesTheGate : Prop :=
  readsAs (.wave 0x90000) (.wSeten false) ∧ readsAs (.wave 0x90001) (.wSeten true) ∧
  ∀ b : Bool, yieldsToLatch (.wSeten b) ∧
    ∀ s : State, s.fatal = none → ∃ t, exec (.wSeten b) s = .next t ∧ s.answered t (.ok .none) ∧ t.wave = { s.wave with enabled := b } ∧
      s.sameDispatcher t ∧ t.fatal = none

/-- R150: `W.SETLVL` sets the level and writes nothing else. -/
def Obligations.WSetlvlWritesTheLevel : Prop :=
  readsAs (.wave 0xA0000) (.wSetlvl .mute) ∧ readsAs (.wave 0xA0001) (.wSetlvl .full) ∧
  readsAs (.wave 0xA0002) (.wSetlvl .half) ∧ readsAs (.wave 0xA0003) (.wSetlvl .quarter) ∧
  ∀ l : Level, yieldsToLatch (.wSetlvl l) ∧
    ∀ s : State, s.fatal = none → ∃ t, exec (.wSetlvl l) s = .next t ∧ s.answered t (.ok .none) ∧ t.wave = { s.wave with level := l } ∧
      s.sameDispatcher t ∧ t.fatal = none

/-- `W.DIV` answers the divider zero-extended to 16 bits, always at most 0x7FF, and changes nothing. The width
of the response is decision D25. -/
def Obligations.WDivAnswersTheDivider : Prop :=
  readsAs (.wave 0x50000) .wDiv ∧ yieldsToLatch .wDiv ∧
  ∀ s : State, s.fatal = none →
    ∃ v : BitVec 16, exec .wDiv s = .next (s.answer (.ok (.half v))) ∧ v.toNat = s.wave.divider.toNat ∧
      v.toNat ≤ 0x7FF

/-! ### The invariant -/

/-- The invariant holds right after power-on. The Wave Channel's four bounds hold there of the zeros of the chosen
`WAVE_INIT`: log 7 and decision D15, which the source does not state. -/
def Obligations.PowerOnStateMeetsTheInvariant : Prop := State.reset.Inv

/-- Every step keeps the invariant, from every state that meets it: the stores stay canonical and of their
sizes, the image stays listed in order, and the Wave Channel's four bounds hold. -/
def Obligations.EveryStepKeepsTheInvariant : Prop :=
  ∀ s t : State, s.Inv → step s = .next t → t.Inv

/-! ### Whole-machine rules -/

/-- Once the latch is set, every operation on every port answers the latched condition and changes nothing,
`BUS.RESET` included; and so does a step on any waiting word, reserved or not. The latch is decision D7
(log 3). -/
def Obligations.LatchedOperationsChangeNothing : Prop :=
  ∀ (s : State) (f : Fatal), s.fatal = some f →
    (∀ i : Instr, exec i s = .next (s.answer (.fatal f))) ∧
    ∀ (c : Command) (rest : List Command), s.pending = c :: rest →
      step s = .next ((s.setPending rest).answer (.fatal f))

/-- R179: an operation whose outcome is `Fatal` produces no response and changes no field but the latch;
the same of a step, whether its word is legal or reserved. -/
def Obligations.FatalChangesNothingButTheLatch : Prop :=
  (∀ (i : Instr) (s t : State) (f : Fatal), exec i s = .next t → t.lastOutcome = some (.fatal f) →
    s.answered t (.fatal f) ∧ s.sameButLatch t) ∧
  ∀ (s t : State) (c : Command) (rest : List Command) (f : Fatal), s.pending = c :: rest → step s = .next t →
    t.lastOutcome = some (.fatal f) →
    t.outcomes = .fatal f :: s.outcomes ∧ t.pending = rest ∧ s.sameButLatch t

/-- Which operation meets which fatal condition, and no other operation is fatal; the latch then holds it. The
causes 0x01 to 0x05 and their info are decision D8. -/
def Obligations.FatalConditionsAreTheTabulated : Prop :=
  ∀ (i : Instr) (s t : State), s.fatal = none → exec i s = .next t →
    t.fatal = raises i ∧ ∀ f, t.lastOutcome = some (.fatal f) ↔ raises i = some f

/-- Which operation reports which diagnostic, and no other operation reports one. The codes and their info are
decision D8; that they are always produced is decision D9. -/
def Obligations.DiagnosticsAreTheTabulated : Prop :=
  ∀ (i : Instr) (s t : State), s.fatal = none → exec i s = .next t →
    ∀ d, (∃ r, t.lastOutcome = some (.okDiag r d)) ↔ reports i = some d

/-- Every operation has exactly one outcome in every state, and every step answers a next state. That an outcome
is always a next state, and no stop of the step, is the model's choice: a fatal condition sets the latch and is a
next state (log 3, decision D7), a reserved word is `Fatal(0x06, word)` where decision D6 puts a refusal first
(log 4), and a step with no command waiting changes nothing (log 8, decision D28). -/
def Obligations.EveryOperationAnswersOnce : Prop :=
  (∀ (i : Instr) (s : State), ∃ t o, exec i s = .next t ∧ s.answered t o) ∧
  ∀ s : State, ∃ t, step s = .next t

/-- R32: which operation writes which field of the Wave Channel; all others leave it. -/
def Obligations.WaveFieldsAreWrittenAsTabulated : Prop :=
  ∀ (i : Instr) (s t : State), exec i s = .next t →
    (t.wave.running ≠ s.wave.running →
      (i = .wStep ∧ t.wave.running = false) ∨ (i = .wStart ∧ t.wave.running = true)) ∧
    (t.wave.enabled ≠ s.wave.enabled → ∃ b, i = .wSeten b) ∧
    (t.wave.remaining ≠ s.wave.remaining →
      (i = .wStep ∧ t.wave.remaining.toNat + 1 = s.wave.remaining.toNat) ∨ ∃ len, i = .wSetlen len) ∧
    (t.wave.level ≠ s.wave.level → ∃ l, i = .wSetlvl l) ∧
    (t.wave.divider ≠ s.wave.divider → ∃ v, i = .wSetdiv v) ∧
    (t.wave.counter ≠ s.wave.counter → i = .wStep ∧
      t.wave.counter.toNat + 1 =
        if s.wave.counter = 0#13 then 2 * (0x800 - s.wave.divider.toNat) else s.wave.counter.toNat) ∧
    (t.wave.mode ≠ s.wave.mode → ∃ m, i = .wSetmode m) ∧
    (∀ k, t.wave.sampleAt k ≠ s.wave.sampleAt k → ∃ j a, i = .wRamwr j a ∧ j.toNat = k.val) ∧
    (t.wave.index ≠ s.wave.index → i = .wStep ∧ t.wave.index.toNat = (s.wave.index.toNat + 1) % 32)

/-- The frame of memory: every operation but `BUS.RESET` leaves every RAM cell and every bank cell outside the
one byte it stores to, and every operation leaves every byte of the image. -/
def Obligations.StoresChangeOnlyTheirByte : Prop :=
  ∀ (i : Instr) (s t : State), exec i s = .next t →
    (∀ o, t.romByte o = s.romByte o) ∧
    (i ≠ .busReset →
      (∀ o, storesRam i ≠ some o → t.ramCell o = s.ramCell o) ∧
      (∀ off, storesBank i ≠ some off → t.bankCell off = s.bankCell off))

/-- The two halves share no state but the latch: an operation of one half changes nothing of the other, and
what it answers and does to its own half does not depend on the other. -/
def Obligations.HalvesDoNotSeeEachOther : Prop :=
  ∀ (i : Instr) (s s' t t' : State), s.fatal = s'.fatal → exec i s = .next t → exec i s' = .next t' →
    (i.port = .wave → s.sameDispatcher t ∧
      (s.wave = s'.wave → t.wave = t'.wave ∧ t.fatal = t'.fatal ∧ t.lastOutcome = t'.lastOutcome)) ∧
    (i.port ≠ .wave → t.wave = s.wave ∧
      (s.sameDispatcher s' → t.sameDispatcher t' ∧ t.fatal = t'.fatal ∧ t.lastOutcome = t'.lastOutcome))

/-- A BUS or BANK operation commutes with a WAVE operation, if neither is fatal: the same final state of the
block and the same two answers. -/
def Obligations.HalvesCommute : Prop :=
  ∀ (i j : Instr) (s si sij sj sji : State), i.port ≠ .wave → j.port = .wave →
    exec i s = .next si → exec j si = .next sij → exec j s = .next sj → exec i sj = .next sji →
    si.fatal = none → sj.fatal = none →
    sij.sameBlock sji ∧ sij.lastOutcome = sj.lastOutcome ∧ sji.lastOutcome = si.lastOutcome

/-- Read after write on the bus: RAM and plain I/O cells answer the byte written, ROM answers the image byte. -/
def Obligations.ReadAfterWrite : Prop :=
  ∀ (s : State) (a : Addr) (v : Byte), s.fatal = none → (a.toNat < 0xE000 ∨ 0xFF00 ≤ a.toNat) → a ≠ 0xFF44#16 →
    ∃ t, memWrite a v s = .next t ∧
      (InRom a → memRead a t = .next (t.answer (.ok (.byte (s.romByte a.toNat))))) ∧
      (InRam a → memRead a t = .next (t.answer (.ok (.byte v)))) ∧
      (InIo a → memRead a t = .next (t.answer (.okDiag (.byte v) (.ioReadUnhandled (ioOffset a)))))

/-- R70: the BANK port and the bus see the same cells with no delay. -/
def Obligations.BankPortAndBusSeeTheSameCells : Prop :=
  ∀ (s : State) (off v : Byte), s.fatal = none → off ≠ 0x44#8 →
    (∃ t, exec (.bankSet off v) s = .next t ∧
      memRead (0xFF00#16 + off.setWidth 16) t = .next (t.answer (.okDiag (.byte v) (.ioReadUnhandled off)))) ∧
    (∃ t, memWrite (0xFF00#16 + off.setWidth 16) v s = .next t ∧
      exec (.bankGet off) t = .next (t.answer (.ok (.byte v))))

/-- R131: a get or set of one cell neither reads nor writes another; sets of different cells commute, as does a
set with a get of another cell; of two sets of one cell the later wins. -/
def Obligations.BankCellsAreIndependent : Prop :=
  ∀ (s : State) (i j v w : Byte), s.fatal = none → i ≠ j →
    ∃ si sij sj sji sii, exec (.bankSet i v) s = .next si ∧ exec (.bankSet j w) si = .next sij ∧
      exec (.bankSet j w) s = .next sj ∧ exec (.bankSet i v) sj = .next sji ∧
      exec (.bankSet i w) si = .next sii ∧
      (∀ k, sij.bankCell k = sji.bankCell k) ∧ (s.bank.wf 0x100 → sij = sji) ∧
      exec (.bankGet j) si = .next (si.answer (.ok (.byte (s.bankCell j)))) ∧ sii.bankCell i = w

/-- The content of cell 0x44 never influences an answer on the BUS port, nor anything but cell 0x44 itself. -/
def Obligations.LineShadowedCellIsInvisibleToTheBus : Prop :=
  ∀ (i : Instr) (s t t' : State) (v : Byte), i.WellFormed → i.port = .bus →
    exec i s = .next t → exec i (s.setBankCell 0x44#8 v) = .next t' →
    t'.lastOutcome = t.lastOutcome ∧ t'.fatal = t.fatal ∧ t'.ram = t.ram ∧ t'.video = t.video ∧
    t'.wave = t.wave ∧ t'.rom = t.rom ∧ ∀ off, off ≠ 0x44#8 → t'.bankCell off = t.bankCell off

/-- The image is never changed, by any step, so a read of a ROM address answers the same byte for ever. -/
def Obligations.NoStepWritesTheImage : Prop :=
  ∀ s t : State, step s = .next t → t.rom = s.rom ∧ ∀ o, t.romByte o = s.romByte o

/-- The current line can change only at `BUS.STEP` and `BUS.RESET`; two reads of 0xFF44 with no such operation
between them answer the same. -/
def Obligations.LineMovesOnlyAtStepAndReset : Prop :=
  ∀ (i : Instr) (s t : State), i ≠ .busStep → i ≠ .busReset → exec i s = .next t →
    t.video = s.video ∧
    ∀ u u' : State, s.fatal = none → t.fatal = none → memRead 0xFF44#16 s = .next u → memRead 0xFF44#16 t = .next u' →
      u'.lastOutcome = u.lastOutcome

/-- R139: a Counter-mode run with a budget of `N` ticks: `N` steps do not stop the channel, and the next one
only stops it, leaving everything else, the countdown and the phase too, as the `N`-th step left it. -/
def Obligations.ExhaustionTick : Prop :=
  ∀ s : State, s.fatal = none → s.wave.running = true → s.wave.mode = .counter →
    (∀ k, k ≤ s.wave.remaining.toNat → ∃ u, execN k .wStep s = .next u ∧ u.wave.running = true) ∧
    ∃ u t, execN s.wave.remaining.toNat .wStep s = .next u ∧ exec .wStep u = .next t ∧
      u.wave.running = true ∧ u.wave.remaining = 0#23 ∧ t.wave = { u.wave with running := false } ∧
      u.sameDispatcher t

/-- The period law: in Continuous mode from countdown 0, with `P = 2 * (0x800 - divider)`, after `n ≥ 1` steps
the phase has advanced `(n - 1) / P + 1` times and the countdown is `(P - n % P) % P`. -/
def Obligations.PeriodLaw : Prop :=
  ∀ (s : State) (n : Nat), s.fatal = none → s.wave.running = true → s.wave.mode = .continuous →
    s.wave.counter = 0#13 → 1 ≤ n →
    ∃ t, execN n .wStep s = .next t ∧ t.wave.divider = s.wave.divider ∧
      t.wave.index.toNat = (s.wave.index.toNat + ((n - 1) / (2 * (0x800 - s.wave.divider.toNat)) + 1)) % 32 ∧
      t.wave.counter.toNat =
        (2 * (0x800 - s.wave.divider.toNat) - n % (2 * (0x800 - s.wave.divider.toNat))) %
          (2 * (0x800 - s.wave.divider.toNat))

/-- A new divider acts at the next reload: while the countdown is not 0, writing it before a step or after it
is the same. -/
def Obligations.DividerChangeWaitsForTheReload : Prop :=
  ∀ (s : State) (v : BitVec 16), s.fatal = none → v.toNat < 0x800 → s.wave.counter ≠ 0#13 →
    ∃ a b t, exec (.wSetdiv v) s = .next a ∧ exec .wStep a = .next t ∧
      exec .wStep s = .next b ∧ exec (.wSetdiv v) b = .next t

/-- R22: `running` is set only by `W.START` and cleared only by `W.STEP`, in Counter mode with no budget left;
while it is false `W.STEP` is a no-op and `W.SAMPLE` answers 0. -/
def Obligations.RunningIsSetByStartAndClearedByExhaustion : Prop :=
  (∀ (i : Instr) (s t : State), exec i s = .next t →
    (s.wave.running = false → t.wave.running = true → i = .wStart) ∧
    (s.wave.running = true → t.wave.running = false →
      i = .wStep ∧ s.wave.mode = .counter ∧ s.wave.remaining = 0#23)) ∧
  ∀ s : State, s.fatal = none → s.wave.running = false →
    exec .wStep s = .next (s.answer (.ok .none)) ∧ exec .wSample s = .next (s.answer (.ok (.byte 0)))
end

