-- ==== Sys2Proof/Laws/State.lean ====
section
/-! SUPPORT. One lemma per field per update of State and of Wave, so that no later proof unfolds an update. -/

namespace Sys2Proof.Machine

section StateUpdates

variable (s : State)

@[simp] theorem State.setRam_ram (m : Memory) : (s.setRam m).ram = m := rfl
@[simp] theorem State.setRam_bank (m : Memory) : (s.setRam m).bank = s.bank := rfl
@[simp] theorem State.setRam_video (m : Memory) : (s.setRam m).video = s.video := rfl
@[simp] theorem State.setRam_fatal (m : Memory) : (s.setRam m).fatal = s.fatal := rfl
@[simp] theorem State.setRam_wave (m : Memory) : (s.setRam m).wave = s.wave := rfl
@[simp] theorem State.setRam_rom (m : Memory) : (s.setRam m).rom = s.rom := rfl
@[simp] theorem State.setRam_pending (m : Memory) : (s.setRam m).pending = s.pending := rfl
@[simp] theorem State.setRam_outcomes (m : Memory) : (s.setRam m).outcomes = s.outcomes := rfl

@[simp] theorem State.setBank_ram (m : Memory) : (s.setBank m).ram = s.ram := rfl
@[simp] theorem State.setBank_bank (m : Memory) : (s.setBank m).bank = m := rfl
@[simp] theorem State.setBank_video (m : Memory) : (s.setBank m).video = s.video := rfl
@[simp] theorem State.setBank_fatal (m : Memory) : (s.setBank m).fatal = s.fatal := rfl
@[simp] theorem State.setBank_wave (m : Memory) : (s.setBank m).wave = s.wave := rfl
@[simp] theorem State.setBank_rom (m : Memory) : (s.setBank m).rom = s.rom := rfl
@[simp] theorem State.setBank_pending (m : Memory) : (s.setBank m).pending = s.pending := rfl
@[simp] theorem State.setBank_outcomes (m : Memory) : (s.setBank m).outcomes = s.outcomes := rfl

@[simp] theorem State.setVideo_ram (v : VState) : (s.setVideo v).ram = s.ram := rfl
@[simp] theorem State.setVideo_bank (v : VState) : (s.setVideo v).bank = s.bank := rfl
@[simp] theorem State.setVideo_video (v : VState) : (s.setVideo v).video = v := rfl
@[simp] theorem State.setVideo_fatal (v : VState) : (s.setVideo v).fatal = s.fatal := rfl
@[simp] theorem State.setVideo_wave (v : VState) : (s.setVideo v).wave = s.wave := rfl
@[simp] theorem State.setVideo_rom (v : VState) : (s.setVideo v).rom = s.rom := rfl
@[simp] theorem State.setVideo_pending (v : VState) : (s.setVideo v).pending = s.pending := rfl
@[simp] theorem State.setVideo_outcomes (v : VState) : (s.setVideo v).outcomes = s.outcomes := rfl

@[simp] theorem State.setFatal_ram (f : Option Fatal) : (s.setFatal f).ram = s.ram := rfl
@[simp] theorem State.setFatal_bank (f : Option Fatal) : (s.setFatal f).bank = s.bank := rfl
@[simp] theorem State.setFatal_video (f : Option Fatal) : (s.setFatal f).video = s.video := rfl
@[simp] theorem State.setFatal_fatal (f : Option Fatal) : (s.setFatal f).fatal = f := rfl
@[simp] theorem State.setFatal_wave (f : Option Fatal) : (s.setFatal f).wave = s.wave := rfl
@[simp] theorem State.setFatal_rom (f : Option Fatal) : (s.setFatal f).rom = s.rom := rfl
@[simp] theorem State.setFatal_pending (f : Option Fatal) : (s.setFatal f).pending = s.pending := rfl
@[simp] theorem State.setFatal_outcomes (f : Option Fatal) : (s.setFatal f).outcomes = s.outcomes := rfl

@[simp] theorem State.setWave_ram (w : Wave) : (s.setWave w).ram = s.ram := rfl
@[simp] theorem State.setWave_bank (w : Wave) : (s.setWave w).bank = s.bank := rfl
@[simp] theorem State.setWave_video (w : Wave) : (s.setWave w).video = s.video := rfl
@[simp] theorem State.setWave_fatal (w : Wave) : (s.setWave w).fatal = s.fatal := rfl
@[simp] theorem State.setWave_wave (w : Wave) : (s.setWave w).wave = w := rfl
@[simp] theorem State.setWave_rom (w : Wave) : (s.setWave w).rom = s.rom := rfl
@[simp] theorem State.setWave_pending (w : Wave) : (s.setWave w).pending = s.pending := rfl
@[simp] theorem State.setWave_outcomes (w : Wave) : (s.setWave w).outcomes = s.outcomes := rfl

@[simp] theorem State.setPending_ram (cs : List Command) : (s.setPending cs).ram = s.ram := rfl
@[simp] theorem State.setPending_bank (cs : List Command) : (s.setPending cs).bank = s.bank := rfl
@[simp] theorem State.setPending_video (cs : List Command) : (s.setPending cs).video = s.video := rfl
@[simp] theorem State.setPending_fatal (cs : List Command) : (s.setPending cs).fatal = s.fatal := rfl
@[simp] theorem State.setPending_wave (cs : List Command) : (s.setPending cs).wave = s.wave := rfl
@[simp] theorem State.setPending_rom (cs : List Command) : (s.setPending cs).rom = s.rom := rfl
@[simp] theorem State.setPending_pending (cs : List Command) : (s.setPending cs).pending = cs := rfl
@[simp] theorem State.setPending_outcomes (cs : List Command) : (s.setPending cs).outcomes = s.outcomes := rfl

@[simp] theorem State.answer_ram (o : OpOutcome) : (s.answer o).ram = s.ram := rfl
@[simp] theorem State.answer_bank (o : OpOutcome) : (s.answer o).bank = s.bank := rfl
@[simp] theorem State.answer_video (o : OpOutcome) : (s.answer o).video = s.video := rfl
@[simp] theorem State.answer_fatal (o : OpOutcome) : (s.answer o).fatal = s.fatal := rfl
@[simp] theorem State.answer_wave (o : OpOutcome) : (s.answer o).wave = s.wave := rfl
@[simp] theorem State.answer_rom (o : OpOutcome) : (s.answer o).rom = s.rom := rfl
@[simp] theorem State.answer_pending (o : OpOutcome) : (s.answer o).pending = s.pending := rfl
@[simp] theorem State.answer_outcomes (o : OpOutcome) : (s.answer o).outcomes = o :: s.outcomes := rfl

@[simp] theorem State.setBankCell_ram (off v : Byte) : (s.setBankCell off v).ram = s.ram := rfl
@[simp] theorem State.setBankCell_bank (off v : Byte) : (s.setBankCell off v).bank = s.bank.write off.toNat v := rfl
@[simp] theorem State.setBankCell_video (off v : Byte) : (s.setBankCell off v).video = s.video := rfl
@[simp] theorem State.setBankCell_fatal (off v : Byte) : (s.setBankCell off v).fatal = s.fatal := rfl
@[simp] theorem State.setBankCell_wave (off v : Byte) : (s.setBankCell off v).wave = s.wave := rfl
@[simp] theorem State.setBankCell_rom (off v : Byte) : (s.setBankCell off v).rom = s.rom := rfl
@[simp] theorem State.setBankCell_pending (off v : Byte) : (s.setBankCell off v).pending = s.pending := rfl
@[simp] theorem State.setBankCell_outcomes (off v : Byte) : (s.setBankCell off v).outcomes = s.outcomes := rfl

@[simp] theorem State.setRamCell_ram (off : Nat) (v : Byte) : (s.setRamCell off v).ram = s.ram.write off v := rfl
@[simp] theorem State.setRamCell_bank (off : Nat) (v : Byte) : (s.setRamCell off v).bank = s.bank := rfl
@[simp] theorem State.setRamCell_video (off : Nat) (v : Byte) : (s.setRamCell off v).video = s.video := rfl
@[simp] theorem State.setRamCell_fatal (off : Nat) (v : Byte) : (s.setRamCell off v).fatal = s.fatal := rfl
@[simp] theorem State.setRamCell_wave (off : Nat) (v : Byte) : (s.setRamCell off v).wave = s.wave := rfl
@[simp] theorem State.setRamCell_rom (off : Nat) (v : Byte) : (s.setRamCell off v).rom = s.rom := rfl
@[simp] theorem State.setRamCell_pending (off : Nat) (v : Byte) : (s.setRamCell off v).pending = s.pending := rfl
@[simp] theorem State.setRamCell_outcomes (off : Nat) (v : Byte) : (s.setRamCell off v).outcomes = s.outcomes := rfl

@[simp] theorem State.ramReset_ram : s.ramReset.ram = [] := rfl
@[simp] theorem State.ramReset_bank : s.ramReset.bank = s.bank := rfl
@[simp] theorem State.ramReset_video : s.ramReset.video = s.video := rfl
@[simp] theorem State.ramReset_fatal : s.ramReset.fatal = s.fatal := rfl
@[simp] theorem State.ramReset_wave : s.ramReset.wave = s.wave := rfl
@[simp] theorem State.ramReset_rom : s.ramReset.rom = s.rom := rfl
@[simp] theorem State.ramReset_pending : s.ramReset.pending = s.pending := rfl
@[simp] theorem State.ramReset_outcomes : s.ramReset.outcomes = s.outcomes := rfl

@[simp] theorem State.bankReset_ram : s.bankReset.ram = s.ram := rfl
@[simp] theorem State.bankReset_bank : s.bankReset.bank = [] := rfl
@[simp] theorem State.bankReset_video : s.bankReset.video = s.video := rfl
@[simp] theorem State.bankReset_fatal : s.bankReset.fatal = s.fatal := rfl
@[simp] theorem State.bankReset_wave : s.bankReset.wave = s.wave := rfl
@[simp] theorem State.bankReset_rom : s.bankReset.rom = s.rom := rfl
@[simp] theorem State.bankReset_pending : s.bankReset.pending = s.pending := rfl
@[simp] theorem State.bankReset_outcomes : s.bankReset.outcomes = s.outcomes := rfl

@[simp] theorem State.present_ram (c : Command) : (s.present c).ram = s.ram := rfl
@[simp] theorem State.present_bank (c : Command) : (s.present c).bank = s.bank := rfl
@[simp] theorem State.present_video (c : Command) : (s.present c).video = s.video := rfl
@[simp] theorem State.present_fatal (c : Command) : (s.present c).fatal = s.fatal := rfl
@[simp] theorem State.present_wave (c : Command) : (s.present c).wave = s.wave := rfl
@[simp] theorem State.present_rom (c : Command) : (s.present c).rom = s.rom := rfl
@[simp] theorem State.present_pending (c : Command) : (s.present c).pending = c :: s.pending := rfl
@[simp] theorem State.present_outcomes (c : Command) : (s.present c).outcomes = s.outcomes := rfl

end StateUpdates

section WaveUpdates

variable (w : Wave)

@[simp] theorem Wave.setRunning_running (b : Bool) : (w.setRunning b).running = b := rfl
@[simp] theorem Wave.setRunning_enabled (b : Bool) : (w.setRunning b).enabled = w.enabled := rfl
@[simp] theorem Wave.setRunning_remaining (b : Bool) : (w.setRunning b).remaining = w.remaining := rfl
@[simp] theorem Wave.setRunning_level (b : Bool) : (w.setRunning b).level = w.level := rfl
@[simp] theorem Wave.setRunning_divider (b : Bool) : (w.setRunning b).divider = w.divider := rfl
@[simp] theorem Wave.setRunning_counter (b : Bool) : (w.setRunning b).counter = w.counter := rfl
@[simp] theorem Wave.setRunning_mode (b : Bool) : (w.setRunning b).mode = w.mode := rfl
@[simp] theorem Wave.setRunning_samples (b : Bool) : (w.setRunning b).samples = w.samples := rfl
@[simp] theorem Wave.setRunning_index (b : Bool) : (w.setRunning b).index = w.index := rfl

@[simp] theorem Wave.setEnabled_running (b : Bool) : (w.setEnabled b).running = w.running := rfl
@[simp] theorem Wave.setEnabled_enabled (b : Bool) : (w.setEnabled b).enabled = b := rfl
@[simp] theorem Wave.setEnabled_remaining (b : Bool) : (w.setEnabled b).remaining = w.remaining := rfl
@[simp] theorem Wave.setEnabled_level (b : Bool) : (w.setEnabled b).level = w.level := rfl
@[simp] theorem Wave.setEnabled_divider (b : Bool) : (w.setEnabled b).divider = w.divider := rfl
@[simp] theorem Wave.setEnabled_counter (b : Bool) : (w.setEnabled b).counter = w.counter := rfl
@[simp] theorem Wave.setEnabled_mode (b : Bool) : (w.setEnabled b).mode = w.mode := rfl
@[simp] theorem Wave.setEnabled_samples (b : Bool) : (w.setEnabled b).samples = w.samples := rfl
@[simp] theorem Wave.setEnabled_index (b : Bool) : (w.setEnabled b).index = w.index := rfl

@[simp] theorem Wave.setRemaining_running (n : BitVec 23) : (w.setRemaining n).running = w.running := rfl
@[simp] theorem Wave.setRemaining_enabled (n : BitVec 23) : (w.setRemaining n).enabled = w.enabled := rfl
@[simp] theorem Wave.setRemaining_remaining (n : BitVec 23) : (w.setRemaining n).remaining = n := rfl
@[simp] theorem Wave.setRemaining_level (n : BitVec 23) : (w.setRemaining n).level = w.level := rfl
@[simp] theorem Wave.setRemaining_divider (n : BitVec 23) : (w.setRemaining n).divider = w.divider := rfl
@[simp] theorem Wave.setRemaining_counter (n : BitVec 23) : (w.setRemaining n).counter = w.counter := rfl
@[simp] theorem Wave.setRemaining_mode (n : BitVec 23) : (w.setRemaining n).mode = w.mode := rfl
@[simp] theorem Wave.setRemaining_samples (n : BitVec 23) : (w.setRemaining n).samples = w.samples := rfl
@[simp] theorem Wave.setRemaining_index (n : BitVec 23) : (w.setRemaining n).index = w.index := rfl

@[simp] theorem Wave.setLevel_running (l : Level) : (w.setLevel l).running = w.running := rfl
@[simp] theorem Wave.setLevel_enabled (l : Level) : (w.setLevel l).enabled = w.enabled := rfl
@[simp] theorem Wave.setLevel_remaining (l : Level) : (w.setLevel l).remaining = w.remaining := rfl
@[simp] theorem Wave.setLevel_level (l : Level) : (w.setLevel l).level = l := rfl
@[simp] theorem Wave.setLevel_divider (l : Level) : (w.setLevel l).divider = w.divider := rfl
@[simp] theorem Wave.setLevel_counter (l : Level) : (w.setLevel l).counter = w.counter := rfl
@[simp] theorem Wave.setLevel_mode (l : Level) : (w.setLevel l).mode = w.mode := rfl
@[simp] theorem Wave.setLevel_samples (l : Level) : (w.setLevel l).samples = w.samples := rfl
@[simp] theorem Wave.setLevel_index (l : Level) : (w.setLevel l).index = w.index := rfl

@[simp] theorem Wave.setDivider_running (d : BitVec 11) : (w.setDivider d).running = w.running := rfl
@[simp] theorem Wave.setDivider_enabled (d : BitVec 11) : (w.setDivider d).enabled = w.enabled := rfl
@[simp] theorem Wave.setDivider_remaining (d : BitVec 11) : (w.setDivider d).remaining = w.remaining := rfl
@[simp] theorem Wave.setDivider_level (d : BitVec 11) : (w.setDivider d).level = w.level := rfl
@[simp] theorem Wave.setDivider_divider (d : BitVec 11) : (w.setDivider d).divider = d := rfl
@[simp] theorem Wave.setDivider_counter (d : BitVec 11) : (w.setDivider d).counter = w.counter := rfl
@[simp] theorem Wave.setDivider_mode (d : BitVec 11) : (w.setDivider d).mode = w.mode := rfl
@[simp] theorem Wave.setDivider_samples (d : BitVec 11) : (w.setDivider d).samples = w.samples := rfl
@[simp] theorem Wave.setDivider_index (d : BitVec 11) : (w.setDivider d).index = w.index := rfl

@[simp] theorem Wave.setCounter_running (n : BitVec 13) : (w.setCounter n).running = w.running := rfl
@[simp] theorem Wave.setCounter_enabled (n : BitVec 13) : (w.setCounter n).enabled = w.enabled := rfl
@[simp] theorem Wave.setCounter_remaining (n : BitVec 13) : (w.setCounter n).remaining = w.remaining := rfl
@[simp] theorem Wave.setCounter_level (n : BitVec 13) : (w.setCounter n).level = w.level := rfl
@[simp] theorem Wave.setCounter_divider (n : BitVec 13) : (w.setCounter n).divider = w.divider := rfl
@[simp] theorem Wave.setCounter_counter (n : BitVec 13) : (w.setCounter n).counter = n := rfl
@[simp] theorem Wave.setCounter_mode (n : BitVec 13) : (w.setCounter n).mode = w.mode := rfl
@[simp] theorem Wave.setCounter_samples (n : BitVec 13) : (w.setCounter n).samples = w.samples := rfl
@[simp] theorem Wave.setCounter_index (n : BitVec 13) : (w.setCounter n).index = w.index := rfl

@[simp] theorem Wave.setMode_running (m : Mode) : (w.setMode m).running = w.running := rfl
@[simp] theorem Wave.setMode_enabled (m : Mode) : (w.setMode m).enabled = w.enabled := rfl
@[simp] theorem Wave.setMode_remaining (m : Mode) : (w.setMode m).remaining = w.remaining := rfl
@[simp] theorem Wave.setMode_level (m : Mode) : (w.setMode m).level = w.level := rfl
@[simp] theorem Wave.setMode_divider (m : Mode) : (w.setMode m).divider = w.divider := rfl
@[simp] theorem Wave.setMode_counter (m : Mode) : (w.setMode m).counter = w.counter := rfl
@[simp] theorem Wave.setMode_mode (m : Mode) : (w.setMode m).mode = m := rfl
@[simp] theorem Wave.setMode_samples (m : Mode) : (w.setMode m).samples = w.samples := rfl
@[simp] theorem Wave.setMode_index (m : Mode) : (w.setMode m).index = w.index := rfl

@[simp] theorem Wave.setSample_running (i : Fin 32) (a : Byte) : (w.setSample i a).running = w.running := rfl
@[simp] theorem Wave.setSample_enabled (i : Fin 32) (a : Byte) : (w.setSample i a).enabled = w.enabled := rfl
@[simp] theorem Wave.setSample_remaining (i : Fin 32) (a : Byte) : (w.setSample i a).remaining = w.remaining := rfl
@[simp] theorem Wave.setSample_level (i : Fin 32) (a : Byte) : (w.setSample i a).level = w.level := rfl
@[simp] theorem Wave.setSample_divider (i : Fin 32) (a : Byte) : (w.setSample i a).divider = w.divider := rfl
@[simp] theorem Wave.setSample_counter (i : Fin 32) (a : Byte) : (w.setSample i a).counter = w.counter := rfl
@[simp] theorem Wave.setSample_mode (i : Fin 32) (a : Byte) : (w.setSample i a).mode = w.mode := rfl
@[simp] theorem Wave.setSample_samples (i : Fin 32) (a : Byte) : (w.setSample i a).samples = w.samples.set i a := rfl
@[simp] theorem Wave.setSample_index (i : Fin 32) (a : Byte) : (w.setSample i a).index = w.index := rfl

@[simp] theorem Wave.setIndex_running (i : BitVec 5) : (w.setIndex i).running = w.running := rfl
@[simp] theorem Wave.setIndex_enabled (i : BitVec 5) : (w.setIndex i).enabled = w.enabled := rfl
@[simp] theorem Wave.setIndex_remaining (i : BitVec 5) : (w.setIndex i).remaining = w.remaining := rfl
@[simp] theorem Wave.setIndex_level (i : BitVec 5) : (w.setIndex i).level = w.level := rfl
@[simp] theorem Wave.setIndex_divider (i : BitVec 5) : (w.setIndex i).divider = w.divider := rfl
@[simp] theorem Wave.setIndex_counter (i : BitVec 5) : (w.setIndex i).counter = w.counter := rfl
@[simp] theorem Wave.setIndex_mode (i : BitVec 5) : (w.setIndex i).mode = w.mode := rfl
@[simp] theorem Wave.setIndex_samples (i : BitVec 5) : (w.setIndex i).samples = w.samples := rfl
@[simp] theorem Wave.setIndex_index (i : BitVec 5) : (w.setIndex i).index = i := rfl

end WaveUpdates

end Sys2Proof.Machine
end

