-- ==== Sys2Proof/Laws/Ops.lean ====
section
/-! SUPPORT. One lemma per shared operation, saying once everything it can do: the check of the latch, the
three answers, taking a fatal condition, the decode of an address, the checked operands. -/

namespace Sys2Proof.Machine

/-- With the latch set an operation answers the latched condition and changes nothing else. -/
theorem unlessFatal_latched {s : State} {f : Fatal} (k : State → Result) (h : s.fatal = some f) :
    unlessFatal s k = .next (s.answer (.fatal f)) := by simp [unlessFatal, h]

/-- With the latch clear an operation has its own effect. -/
theorem unlessFatal_live {s : State} (k : State → Result) (h : s.fatal = none) :
    unlessFatal s k = k s := by simp [unlessFatal, h]

/-- Everything the check of the latch can do. -/
theorem unlessFatal_cases {s t : State} {k : State → Result} (h : unlessFatal s k = .next t) :
    (∃ f, s.fatal = some f ∧ t = s.answer (.fatal f)) ∨ (s.fatal = none ∧ k s = .next t) := by
  cases hf : s.fatal with
  | none => exact .inr ⟨rfl, by rwa [unlessFatal_live k hf] at h⟩
  | some f =>
    rw [unlessFatal_latched k hf] at h
    cases h
    exact .inl ⟨f, rfl, rfl⟩

/-- A silent completion. -/
theorem done_cases {r : Response} {s t : State} (h : done r s = .next t) : t = s.answer (.ok r) := by
  cases h; rfl

/-- A completion with a diagnostic. -/
theorem doneDiag_cases {r : Response} {d : Diag} {s t : State} (h : doneDiag r d s = .next t) :
    t = s.answer (.okDiag r d) := by cases h; rfl

/-- Taking a fatal condition sets the latch and answers it. -/
theorem raiseFatal_cases {f : Fatal} {s t : State} (h : raiseFatal f s = .next t) :
    t = (s.setFatal (some f)).answer (.fatal f) := by cases h; rfl

/-- The checked table index. -/
theorem tableIndex_of_lt {i : Byte} (h : i.toNat < 32) : tableIndex i = some ⟨i.toNat, h⟩ := by
  simp [tableIndex, h]

theorem tableIndex_of_ge {i : Byte} (h : 32 ≤ i.toNat) : tableIndex i = none := by
  simp [tableIndex, Nat.not_lt.2 h]

/-- The checked divider. -/
theorem dividerOperand_of_lt {v : BitVec 16} (h : v.toNat < 0x800) :
    dividerOperand v = some (v.extractLsb' 0 11) := by simp [dividerOperand, h]

theorem dividerOperand_of_ge {v : BitVec 16} (h : 0x800 ≤ v.toNat) : dividerOperand v = none := by
  simp [dividerOperand, Nat.not_lt.2 h]

/-- The operands below their bounds keep their numbers. -/
theorem dividerOperand_toNat {v : BitVec 16} (h : v.toNat < 0x800) : (v.extractLsb' 0 11).toNat = v.toNat := by
  simp [BitVec.extractLsb'_toNat]; omega

/-- The length budget as a number: nothing is truncated. -/
theorem lengthBudget_toNat (len : Byte) : (lengthBudget len).toNat = (256 - len.toNat) * 0x4000 := by
  have := len.isLt
  simp [lengthBudget]; omega

/-- The reload value as a number: nothing is truncated. -/
theorem reloadValue_toNat (d : BitVec 11) : (reloadValue d).toNat = 2 * (0x800 - d.toNat) := by
  have := d.isLt
  simp [reloadValue]; omega

end Sys2Proof.Machine
end

