-- ==== Sys2Proof/Laws/Channel.lean ====
section
/-! SUPPORT. The tick of the Wave Channel: what its clauses do to each field (spec/42_wave_channel.md R137). -/

namespace Sys2Proof.Machine

variable (w : Wave)

/-- Clause (a): a stopped channel does not change. -/
theorem Wave.tick_stopped (h : w.running = false) : w.tick = w := by simp [Wave.tick, h]

/-- Clause (b): the exhaustion tick only stops the channel. -/
theorem Wave.tick_exhausted (hr : w.running = true) (hm : w.mode = .counter) (h0 : w.remaining = 0#23) :
    w.tick = w.setRunning false := by simp [Wave.tick, Wave.exhausted, hr, hm, h0]

/-- Clauses (c) and (d) in `Continuous` mode. -/
theorem Wave.tick_continuous (hr : w.running = true) (hm : w.mode = .continuous) :
    w.tick = w.reload.countDown := by simp [Wave.tick, Wave.exhausted, Wave.spend, hr, hm]

/-- Clauses (b), (c) and (d) in `Counter` mode with budget left. -/
theorem Wave.tick_counter (hr : w.running = true) (hm : w.mode = .counter) (h0 : w.remaining ≠ 0#23) :
    w.tick = (w.setRemaining (w.remaining - 1#23)).reload.countDown := by
  simp [Wave.tick, Wave.exhausted, Wave.spend, hr, hm, h0]

/-- Clause (c) at 0. -/
theorem Wave.reload_zero (h : w.counter = 0#13) :
    w.reload = (w.setCounter (reloadValue w.divider)).setIndex (w.index + 1#5) := by simp [Wave.reload, h]

/-- Clause (c) away from 0. -/
theorem Wave.reload_nonzero (h : w.counter ≠ 0#13) : w.reload = w := by simp [Wave.reload, h]

end Sys2Proof.Machine
end

