-- ==== Sys2Proof/Laws/Encoding.lean ====
section
/-! SUPPORT. The fields of the words the encoder builds: each word as a number, and what the decoder extracts
from it (spec/30_encoding.md R73, R74, R76). -/

namespace Sys2Proof

/-- Concatenation as a number: the left part stands above the right one. -/
theorem toNat_append_eq {n m : Nat} (x : BitVec n) (y : BitVec m) :
    (x ++ y).toNat = x.toNat * 2 ^ m + y.toNat := by
  rw [BitVec.toNat_append, ← Nat.shiftLeft_add_eq_or_of_lt y.isLt, Nat.shiftLeft_eq]

/-- A field of a word as a number. -/
theorem toNat_field {n : Nat} (w : BitVec n) (lo len : Nat) :
    (w.extractLsb' lo len).toNat = w.toNat / 2 ^ lo % 2 ^ len := by
  rw [BitVec.extractLsb'_toNat, Nat.shiftRight_eq_div_pow]

/-- The three concatenated fields of a word as a number. -/
theorem toNat_append3 {k n m : Nat} (x : BitVec k) (y : BitVec n) (z : BitVec m) :
    (x ++ y ++ z).toNat = (x.toNat * 2 ^ n + y.toNat) * 2 ^ m + z.toNat := by
  rw [toNat_append_eq, toNat_append_eq]

section Bus

variable (b : BitVec 2) (a : Addr) (d : Byte)

theorem busWord_bop : BitVec.extractLsb' (n := 26) 24 2 (b ++ a ++ d) = b := by
  have h := toNat_append3 b a d
  have := a.isLt; have := d.isLt; have := b.isLt
  refine BitVec.eq_of_toNat_eq ?_
  rw [toNat_field]
  show (b ++ a ++ d).toNat / _ % _ = _
  rw [h]; omega

theorem busWord_addr : BitVec.extractLsb' (n := 26) 8 16 (b ++ a ++ d) = a := by
  have h := toNat_append3 b a d
  have := a.isLt; have := d.isLt; have := b.isLt
  refine BitVec.eq_of_toNat_eq ?_
  rw [toNat_field]
  show (b ++ a ++ d).toNat / _ % _ = _
  rw [h]; omega

theorem busWord_data : BitVec.extractLsb' (n := 26) 0 8 (b ++ a ++ d) = d := by
  have h := toNat_append3 b a d
  have := a.isLt; have := d.isLt; have := b.isLt
  refine BitVec.eq_of_toNat_eq ?_
  rw [toNat_field]
  show (b ++ a ++ d).toNat / _ % _ = _
  rw [h]; omega

end Bus

section Bank

variable (k : BitVec 1) (off d : Byte)

theorem bankWord_kop : BitVec.extractLsb' (n := 17) 16 1 (k ++ off ++ d) = k := by
  have h := toNat_append3 k off d
  have := off.isLt; have := d.isLt; have := k.isLt
  refine BitVec.eq_of_toNat_eq ?_
  rw [toNat_field]
  show (k ++ off ++ d).toNat / _ % _ = _
  rw [h]; omega

theorem bankWord_off : BitVec.extractLsb' (n := 17) 8 8 (k ++ off ++ d) = off := by
  have h := toNat_append3 k off d
  have := off.isLt; have := d.isLt; have := k.isLt
  refine BitVec.eq_of_toNat_eq ?_
  rw [toNat_field]
  show (k ++ off ++ d).toNat / _ % _ = _
  rw [h]; omega

theorem bankWord_data : BitVec.extractLsb' (n := 17) 0 8 (k ++ off ++ d) = d := by
  have h := toNat_append3 k off d
  have := off.isLt; have := d.isLt; have := k.isLt
  refine BitVec.eq_of_toNat_eq ?_
  rw [toNat_field]
  show (k ++ off ++ d).toNat / _ % _ = _
  rw [h]; omega

end Bank

section Wave

variable (o : BitVec 4) (hi lo : Byte)

theorem waveWord_toNat : BitVec.toNat (w := 20) (o ++ hi ++ lo) = (o.toNat * 2 ^ 8 + hi.toNat) * 2 ^ 8 + lo.toNat :=
  toNat_append3 o hi lo

theorem waveWord_wop : BitVec.extractLsb' (n := 20) 16 4 (o ++ hi ++ lo) = o := by
  have := o.isLt; have := hi.isLt; have := lo.isLt
  refine BitVec.eq_of_toNat_eq ?_
  rw [toNat_field, waveWord_toNat]; omega

theorem waveWord_lo : BitVec.extractLsb' (n := 20) 0 8 (o ++ hi ++ lo) = lo := by
  have := o.isLt; have := hi.isLt; have := lo.isLt
  refine BitVec.eq_of_toNat_eq ?_
  rw [toNat_field, waveWord_toNat]; omega

theorem waveWord_hi : BitVec.extractLsb' (n := 20) 8 8 (o ++ hi ++ lo) = hi := by
  have := o.isLt; have := hi.isLt; have := lo.isLt
  refine BitVec.eq_of_toNat_eq ?_
  rw [toNat_field, waveWord_toNat]; omega

/-- A field inside `arg[7:0]`, or above it with `arg[15:8]` zero. -/
theorem waveWord_arg (at_ len : Nat) (hlen : at_ + len ≤ 16) :
    (BitVec.extractLsb' (n := 20) at_ len (o ++ hi ++ lo)).toNat =
      (hi.toNat * 2 ^ 8 + lo.toNat) / 2 ^ at_ % 2 ^ len := by
  have := o.isLt; have := hi.isLt; have := lo.isLt
  rw [toNat_field, waveWord_toNat]
  have e : (o.toNat * 2 ^ 8 + hi.toNat) * 2 ^ 8 + lo.toNat
      = hi.toNat * 2 ^ 8 + lo.toNat + 2 ^ at_ * (2 ^ len * (o.toNat * 2 ^ (16 - (at_ + len)))) := by
    have : 2 ^ at_ * (2 ^ len * (o.toNat * 2 ^ (16 - (at_ + len)))) = o.toNat * 2 ^ 16 := by
      have : (2 : Nat) ^ 16 = 2 ^ at_ * 2 ^ len * 2 ^ (16 - (at_ + len)) := by
        rw [← Nat.pow_add, ← Nat.pow_add, Nat.add_sub_cancel' hlen]
      rw [this]
      simp only [Nat.mul_assoc, Nat.mul_left_comm]
    rw [this]; omega
  rw [e, Nat.add_mul_div_left _ _ (Nat.two_pow_pos _), Nat.add_mul_mod_self_left]

end Wave

end Sys2Proof
end

