-- ==== Sys2Proof/Laws/Memory.lean ====
section
/-! SUPPORT. The laws of the byte stores: what a read answers after a write, that a write leaves every other
cell, and that every operation on a store keeps its canonical form. -/

namespace Sys2Proof.Machine

@[simp] theorem Memory.read_nil (a : Nat) : Memory.read [] a = Memory.unlisted := rfl

theorem Memory.lookup_remove_self (m : Memory) (a : Nat) : (m.remove a).lookup a = none := by
  induction m with
  | nil => rfl
  | cons c rest ih =>
    unfold Memory.remove at ih ⊢
    by_cases h : c.1 = a
    · simpa [h] using ih
    · simpa [h, Memory.lookup] using ih

theorem Memory.lookup_remove_other (m : Memory) {a b : Nat} (hb : b ≠ a) :
    (m.remove a).lookup b = m.lookup b := by
  induction m with
  | nil => rfl
  | cons c rest ih =>
    unfold Memory.remove at ih ⊢
    by_cases h : c.1 = a
    · have hcb : c.1 ≠ b := fun e => hb (e.symm.trans h)
      rw [List.filter_cons_of_neg (by simpa using h), ih, Memory.lookup, if_neg hcb]
    · rw [List.filter_cons_of_pos (by simpa using h), Memory.lookup, ih, Memory.lookup]

theorem Memory.lookup_insert_self (m : Memory) (a : Nat) (v : Byte) (h : m.lookup a = none) :
    (m.insert a v).lookup a = some v := by
  induction m with
  | nil => simp [Memory.insert, Memory.lookup]
  | cons c rest ih =>
    have hc : c.1 ≠ a := fun e => by simp [Memory.lookup, e] at h
    by_cases hlt : a < c.1
    · simp [Memory.insert, Memory.lookup, hlt]
    · simpa [Memory.insert, Memory.lookup, hlt, hc] using ih (by simpa [Memory.lookup, hc] using h)

theorem Memory.lookup_insert_other (m : Memory) {a b : Nat} (v : Byte) (hb : b ≠ a) :
    (m.insert a v).lookup b = m.lookup b := by
  induction m with
  | nil => simp [Memory.insert, Memory.lookup, hb.symm]
  | cons c rest ih =>
    by_cases hlt : a < c.1
    · simp [Memory.insert, Memory.lookup, hlt, hb.symm]
    · simp only [Memory.insert, hlt, if_false, Memory.lookup, ih]

/-- A cell reads as the byte last written to it. -/
@[simp] theorem Memory.read_write_self (m : Memory) (a : Nat) (v : Byte) : (m.write a v).read a = v := by
  unfold Memory.write Memory.read
  split
  · rename_i h; rw [Memory.lookup_remove_self, h]; rfl
  · rw [Memory.lookup_insert_self _ _ _ (Memory.lookup_remove_self m a)]; rfl

/-- A write leaves every other cell. -/
theorem Memory.read_write_other (m : Memory) {a b : Nat} (v : Byte) (hb : b ≠ a) :
    (m.write a v).read b = m.read b := by
  unfold Memory.write Memory.read
  split
  · rw [Memory.lookup_remove_other m hb]
  · rw [Memory.lookup_insert_other _ v hb, Memory.lookup_remove_other m hb]

theorem Memory.mem_insert {m : Memory} {a : Nat} {v : Byte} {c : Host.Cell} :
    c ∈ m.insert a v ↔ c = (a, v) ∨ c ∈ m := by
  induction m with
  | nil => simp [Memory.insert]
  | cons d rest ih =>
    by_cases hlt : a < d.1
    · simp [Memory.insert, hlt]
    · simp [Memory.insert, hlt, ih, or_left_comm]

theorem Memory.wf_nil (size : Nat) : Memory.wf size [] := by simp [Memory.wf]

theorem Memory.wf_remove {size : Nat} {m : Memory} (h : m.wf size) (a : Nat) : (m.remove a).wf size :=
  ⟨h.1.filter _, fun c hc => h.2 c (List.mem_of_mem_filter hc)⟩

theorem Memory.wf_insert {size a : Nat} {m : Memory} {v : Byte} (h : m.wf size) (ha : a < size)
    (hv : v ≠ Memory.unlisted) (hm : ∀ c ∈ m, c.1 ≠ a) : (m.insert a v).wf size := by
  refine ⟨?_, fun c hc => ?_⟩
  · obtain ⟨hs, -⟩ := h
    induction m with
    | nil => simp [Memory.insert]
    | cons d rest ih =>
      have hs' := List.pairwise_cons.1 hs
      by_cases hlt : a < d.1
      · simp only [Memory.insert, hlt, if_true, List.pairwise_cons]
        refine ⟨fun c hc => ?_, hs'⟩
        rcases List.mem_cons.1 hc with rfl | hc
        · exact hlt
        · exact hlt.trans (hs'.1 c hc)
      · simp only [Memory.insert, hlt, if_false, List.pairwise_cons]
        refine ⟨fun c hc => ?_, ih (fun c hc => hm c (List.mem_cons_of_mem _ hc)) hs'.2⟩
        rcases Memory.mem_insert.1 hc with rfl | hc
        · have := hm d (List.mem_cons_self ..)
          show d.1 < a
          omega
        · exact hs'.1 c hc
  · rcases Memory.mem_insert.1 hc with rfl | hc
    · exact ⟨ha, hv⟩
    · exact h.2 c hc

/-- A write to a cell of the store keeps its canonical form. -/
theorem Memory.wf_write {size a : Nat} {m : Memory} (h : m.wf size) (ha : a < size) (v : Byte) :
    (m.write a v).wf size := by
  unfold Memory.write
  split
  · exact Memory.wf_remove h a
  · rename_i hv
    exact Memory.wf_insert (Memory.wf_remove h a) ha hv (fun c hc => by simpa using (List.mem_filter.1 hc).2)

theorem Memory.lookup_eq_none {m : Memory} {a : Nat} (h : ∀ c ∈ m, c.1 ≠ a) : m.lookup a = none := by
  induction m with
  | nil => rfl
  | cons c rest ih =>
    rw [Memory.lookup, if_neg (h c (List.mem_cons_self ..)), ih fun d hd => h d (List.mem_cons_of_mem _ hd)]

/-- In canonical form the listed cells are those that do not read as the unlisted byte. -/
theorem Memory.lookup_eq_of_read_eq {size : Nat} {m m' : Memory} (h : m.wf size) (h' : m'.wf size) {a : Nat}
    (hr : m.read a = m'.read a) : m.lookup a = m'.lookup a := by
  have listed : ∀ {n : Memory}, n.wf size → ∀ v, n.lookup a = some v → v ≠ Memory.unlisted := by
    intro n hn v hv
    induction n with
    | nil => simp [Memory.lookup] at hv
    | cons c rest ih =>
      by_cases hc : c.1 = a
      · simp only [Memory.lookup, hc, if_true, Option.some.injEq] at hv
        exact hv ▸ (hn.2 c (List.mem_cons_self ..)).2
      · simp only [Memory.lookup, hc, if_false] at hv
        exact ih ⟨(List.pairwise_cons.1 hn.1).2, fun d hd => hn.2 d (List.mem_cons_of_mem _ hd)⟩ hv
  unfold Memory.read at hr
  cases hm : m.lookup a <;> cases hm' : m'.lookup a <;> simp only [hm, hm', Option.getD_none, Option.getD_some] at hr
  · rfl
  · exact absurd hr.symm (listed h' _ hm')
  · exact absurd hr (listed h _ hm)
  · rw [hr]

/-- Two stores in canonical form that read alike are the same data. -/
theorem Memory.ext_of_wf {size : Nat} {m m' : Memory} (h : m.wf size) (h' : m'.wf size)
    (hr : ∀ a, m.read a = m'.read a) : m = m' := by
  have hl : ∀ a, m.lookup a = m'.lookup a := fun a => Memory.lookup_eq_of_read_eq h h' (hr a)
  clear hr
  induction m generalizing m' with
  | nil =>
    cases m' with
    | nil => rfl
    | cons d rest' => simpa [Memory.lookup] using hl d.1
  | cons c rest ih =>
    have hs := List.pairwise_cons.1 h.1
    cases m' with
    | nil => simpa [Memory.lookup] using hl c.1
    | cons d rest' =>
      have hs' := List.pairwise_cons.1 h'.1
      have key : c = d := by
        rcases Nat.lt_trichotomy c.1 d.1 with hlt | heq | hgt
        · have e := hl c.1
          rw [Memory.lookup, if_pos rfl, Memory.lookup, if_neg (by omega),
            Memory.lookup_eq_none (fun x hx => by have := hs'.1 x hx; omega)] at e
          cases e
        · have e := hl c.1
          rw [Memory.lookup, if_pos rfl, Memory.lookup, if_pos heq.symm] at e
          exact Prod.ext heq (Option.some.inj e)
        · have e := hl d.1
          rw [Memory.lookup, if_neg (by omega), Memory.lookup, if_pos rfl,
            Memory.lookup_eq_none (fun x hx => by have := hs.1 x hx; omega)] at e
          cases e
      subst key
      congr 1
      refine ih ⟨hs.2, fun x hx => h.2 x (List.mem_cons_of_mem _ hx)⟩
        ⟨hs'.2, fun x hx => h'.2 x (List.mem_cons_of_mem _ hx)⟩ fun a => ?_
      by_cases ha : c.1 = a
      · rw [Memory.lookup_eq_none (fun x hx => by have := hs.1 x hx; omega),
          Memory.lookup_eq_none (fun x hx => by have := hs'.1 x hx; omega)]
      · have e := hl a
        rwa [Memory.lookup, if_neg ha, Memory.lookup, if_neg ha] at e

/-- The stores of the state right after power-on are in canonical form. -/
theorem State.reset_stores_wf :
    Memory.wf 0x6000 State.reset.ram ∧ Memory.wf 0x100 State.reset.bank :=
  ⟨Memory.wf_nil _, Memory.wf_nil _⟩

end Sys2Proof.Machine
end

