-- ==== Sys2Proof/Laws/Exec.lean ====
section
/-! SUPPORT. `exec` seen once: every operation is the check of the latch followed by the operation's own effect,
and the effect is one of the three answers over updates that have their lemmas in Laws/State. Proofs about all
operations go through `exec_eq_unlessFatal` and `cases i`, and need not unfold the meanings one by one. -/

namespace Sys2Proof.Machine

/-- The effect of an operation when no fatal condition is latched. -/
def effect : Instr → State → Result
  | .rdRom a, s => done (.byte (s.romByte a.toNat)) s
  | .rdRam a, s => done (.byte (s.ramCell (ramOffset a))) s
  | .rdUnmapped a, s => raiseFatal (.unmappedRead a) s
  | .rdLy, s => done (.byte s.video.vline) s
  | .rdIo a, s => doneDiag (.byte (s.bankCell (ioOffset a))) (.ioReadUnhandled (ioOffset a)) s
  | .wrRom a v, s => doneDiag .none (.romWrite a v) s
  | .wrRam a v, s => done .none (s.setRamCell (ramOffset a) v)
  | .wrUnmapped a v, s => raiseFatal (.unmappedWrite a v) s
  | .wrLy v, s => raiseFatal (.scanlineWrite v) s
  | .wrIo a v, s => doneDiag .none (.ioWriteUnhandled (ioOffset a) v) (s.setBankCell (ioOffset a) v)
  | .busStep, s => done .none (s.setVideo (Config.vstep s.video))
  | .busReset, s => done .none (s.ramReset.bankReset.setVideo Config.vreset)
  | .bankGet off, s => done (.byte (s.bankCell off)) s
  | .bankSet off v, s => done .none (s.setBankCell off v)
  | .wStep, s => done .none (s.setWave s.wave.tick)
  | .wSample, s => done (.byte s.wave.output) s
  | .wRamrd i, s =>
    if h : i.toNat < 32 then done (.byte (s.wave.sampleAt ⟨i.toNat, h⟩)) s else raiseFatal (.waveIndexRange i) s
  | .wRamwr i a, s =>
    if h : i.toNat < 32 then done .none (s.setWave (s.wave.setSample ⟨i.toNat, h⟩ a))
    else raiseFatal (.waveIndexRange i) s
  | .wStart, s => done .none (s.setWave (s.wave.setRunning true))
  | .wDiv, s => done (.half (dividerResult s.wave.divider)) s
  | .wSetdiv v, s =>
    if v.toNat < 0x800 then done .none (s.setWave (s.wave.setDivider (v.extractLsb' 0 11)))
    else raiseFatal (.dividerRange v) s
  | .wSetmode m, s => done .none (s.setWave (s.wave.setMode m))
  | .wSetlen len, s => done .none (s.setWave (s.wave.setRemaining (lengthBudget len)))
  | .wSeten b, s => done .none (s.setWave (s.wave.setEnabled b))
  | .wSetlvl l, s => done .none (s.setWave (s.wave.setLevel l))

/-- Every operation checks the latch and then has its effect. -/
theorem exec_eq_unlessFatal (i : Instr) (s : State) : exec i s = unlessFatal s (effect i) := by
  cases i
  case wRamrd i =>
    by_cases h : i.toNat < 32
    · simp only [exec, execWRamrd, tableIndex_of_lt h]
      exact congrArg _ (funext fun t => by simp only [effect, h, dite_true])
    · simp only [exec, execWRamrd, tableIndex_of_ge (Nat.not_lt.1 h)]
      exact congrArg _ (funext fun t => by simp only [effect, h, dite_false])
  case wRamwr i a =>
    by_cases h : i.toNat < 32
    · simp only [exec, execWRamwr, tableIndex_of_lt h]
      exact congrArg _ (funext fun t => by simp only [effect, h, dite_true])
    · simp only [exec, execWRamwr, tableIndex_of_ge (Nat.not_lt.1 h)]
      exact congrArg _ (funext fun t => by simp only [effect, h, dite_false])
  case wSetdiv v =>
    by_cases h : v.toNat < 0x800
    · simp only [exec, execWSetdiv, dividerOperand_of_lt h]
      exact congrArg _ (funext fun t => by simp only [effect, h, if_true])
    · simp only [exec, execWSetdiv, dividerOperand_of_ge (Nat.not_lt.1 h)]
      exact congrArg _ (funext fun t => by simp only [effect, h, if_false])
  all_goals rfl

/-- With the latch clear `exec` is the effect. -/
theorem exec_live {s : State} (i : Instr) (h : s.fatal = none) : exec i s = effect i s := by
  rw [exec_eq_unlessFatal, unlessFatal_live _ h]

/-- Everything `exec` can do. -/
theorem exec_cases {i : Instr} {s t : State} (h : exec i s = .next t) :
    (∃ f, s.fatal = some f ∧ t = s.answer (.fatal f)) ∨ (s.fatal = none ∧ effect i s = .next t) :=
  unlessFatal_cases (exec_eq_unlessFatal i s ▸ h)

end Sys2Proof.Machine
end

