-- ==== Sys2Proof/Laws/PerInstr.lean ====
section
/-! SUPPORT. The per-instruction family `EncodePort`: the encoder puts every operation's word on the port the
operation is issued on (spec/30_encoding.md R71, R85), so that the decoder reads it in the right format. -/

/-- The word of the operation is presented on the operation's own port. -/
def Sys2Proof.Laws.EncodePort.Statement (i : Sys2Proof.Instr) : Prop := (Sys2Proof.encode i).port = i.port

theorem Sys2Proof.Laws.EncodePort.rdRom a : Sys2Proof.Laws.EncodePort.Statement (.rdRom a) := rfl
theorem Sys2Proof.Laws.EncodePort.rdRam a : Sys2Proof.Laws.EncodePort.Statement (.rdRam a) := rfl
theorem Sys2Proof.Laws.EncodePort.rdUnmapped a : Sys2Proof.Laws.EncodePort.Statement (.rdUnmapped a) := rfl
theorem Sys2Proof.Laws.EncodePort.rdLy : Sys2Proof.Laws.EncodePort.Statement (.rdLy) := rfl
theorem Sys2Proof.Laws.EncodePort.rdIo a : Sys2Proof.Laws.EncodePort.Statement (.rdIo a) := rfl
theorem Sys2Proof.Laws.EncodePort.wrRom a v : Sys2Proof.Laws.EncodePort.Statement (.wrRom a v) := rfl
theorem Sys2Proof.Laws.EncodePort.wrRam a v : Sys2Proof.Laws.EncodePort.Statement (.wrRam a v) := rfl
theorem Sys2Proof.Laws.EncodePort.wrUnmapped a v : Sys2Proof.Laws.EncodePort.Statement (.wrUnmapped a v) := rfl
theorem Sys2Proof.Laws.EncodePort.wrLy v : Sys2Proof.Laws.EncodePort.Statement (.wrLy v) := rfl
theorem Sys2Proof.Laws.EncodePort.wrIo a v : Sys2Proof.Laws.EncodePort.Statement (.wrIo a v) := rfl
theorem Sys2Proof.Laws.EncodePort.busStep : Sys2Proof.Laws.EncodePort.Statement (.busStep) := rfl
theorem Sys2Proof.Laws.EncodePort.busReset : Sys2Proof.Laws.EncodePort.Statement (.busReset) := rfl
theorem Sys2Proof.Laws.EncodePort.bankGet off : Sys2Proof.Laws.EncodePort.Statement (.bankGet off) := rfl
theorem Sys2Proof.Laws.EncodePort.bankSet off v : Sys2Proof.Laws.EncodePort.Statement (.bankSet off v) := rfl
theorem Sys2Proof.Laws.EncodePort.wStep : Sys2Proof.Laws.EncodePort.Statement (.wStep) := rfl
theorem Sys2Proof.Laws.EncodePort.wSample : Sys2Proof.Laws.EncodePort.Statement (.wSample) := rfl
theorem Sys2Proof.Laws.EncodePort.wRamrd i : Sys2Proof.Laws.EncodePort.Statement (.wRamrd i) := rfl
theorem Sys2Proof.Laws.EncodePort.wRamwr i a : Sys2Proof.Laws.EncodePort.Statement (.wRamwr i a) := rfl
theorem Sys2Proof.Laws.EncodePort.wStart : Sys2Proof.Laws.EncodePort.Statement (.wStart) := rfl
theorem Sys2Proof.Laws.EncodePort.wDiv : Sys2Proof.Laws.EncodePort.Statement (.wDiv) := rfl
theorem Sys2Proof.Laws.EncodePort.wSetdiv v : Sys2Proof.Laws.EncodePort.Statement (.wSetdiv v) := rfl
theorem Sys2Proof.Laws.EncodePort.wSetmode m : Sys2Proof.Laws.EncodePort.Statement (.wSetmode m) := rfl
theorem Sys2Proof.Laws.EncodePort.wSetlen len : Sys2Proof.Laws.EncodePort.Statement (.wSetlen len) := rfl
theorem Sys2Proof.Laws.EncodePort.wSeten b : Sys2Proof.Laws.EncodePort.Statement (.wSeten b) := rfl
theorem Sys2Proof.Laws.EncodePort.wSetlvl l : Sys2Proof.Laws.EncodePort.Statement (.wSetlvl l) := rfl
end

