-- ==== Sys2Proof/Tests/Slice0.lean ====
section
/-! SUPPORT. Tests. Expected values come from spec/30_encoding.md section 7 and spec/95_test_vectors.md (the
vector is named in each comment), never from the model. The witnesses show that the hypotheses of each
statement can be met, at the ends of their ranges. -/

namespace Sys2Proof.Tests

open Sys2Proof.Machine

/-! ### Small states and one-step observations -/

/-- Power-on with the test video subsystem's state 0 (spec/95_test_vectors.md section 0) and two image bytes. -/
def base : State :=
  { State.reset with video := ⟨0x00, 0⟩, rom := [(0x0100, 0x01#8), (0x7FFF, 0x80#8)] }

/-- `base` with a Wave Channel. -/
def withWave (w : Wave) : State := { base with wave := w }

/-- A running channel in a mode, with a budget, a divider, a countdown and a phase. -/
def running (m : Mode) (remaining : BitVec 23) (divider : BitVec 11) (counter : BitVec 13) (index : BitVec 5) :
    Wave :=
  { Wave.init with
    running := true, mode := m, remaining := remaining, divider := divider, counter := counter, index := index }

/-- A channel of vector V-W5: the entry at the phase is 12. -/
def gated (r e : Bool) (l : Level) : Wave :=
  { Wave.init with running := r, enabled := e, level := l, samples := Wave.init.samples.set 0 12#8 }

/-- A state with something in every store, and a word waiting. -/
def busy (c : Command) : State :=
  { State.reset with
    ram := [(0x0000, 0x12#8), (0x5FFF, 0xAB#8)], bank := [(0x00, 0x3C#8), (0x44, 0x90#8), (0xFF, 0x1F#8)],
    rom := [(0x0000, 0x00#8), (0x7FFF, 0x80#8)], wave := running .counter 3#23 0x7FF#11 0#13 31#5, pending := [c] }

/-- The next state of a result. -/
def nextOf : Result → Option State
  | .next t => some t
  | .fault _ => none
  | .refused _ => none

/-- What an operation answers. -/
def answerOf (i : Instr) (s : State) : Option OpOutcome := (nextOf (exec i s)).bind State.lastOutcome

/-- The Wave Channel after an operation. -/
def waveAfter (i : Instr) (s : State) : Option Wave := (nextOf (exec i s)).map State.wave

/-! ### Well-formedness: an ill-formed term for each check, and the ends of each range -/

theorem test_wf_refuses :
    ¬ (Instr.rdRom 0x8000).WellFormed ∧
    ¬ (Instr.rdRam 0x7FFF).WellFormed ∧ ¬ (Instr.rdRam 0xE000).WellFormed ∧
    ¬ (Instr.rdUnmapped 0xDFFF).WellFormed ∧ ¬ (Instr.rdUnmapped 0xFF00).WellFormed ∧
    ¬ (Instr.rdIo 0xFEFF).WellFormed ∧ ¬ (Instr.rdIo 0xFF44).WellFormed ∧
    ¬ (Instr.wrRom 0x8000 0).WellFormed ∧
    ¬ (Instr.wrRam 0x7FFF 0).WellFormed ∧ ¬ (Instr.wrRam 0xE000 0).WellFormed ∧
    ¬ (Instr.wrUnmapped 0xDFFF 0).WellFormed ∧ ¬ (Instr.wrUnmapped 0xFF00 0).WellFormed ∧
    ¬ (Instr.wrIo 0xFEFF 0).WellFormed ∧ ¬ (Instr.wrIo 0xFF44 0).WellFormed := by decide

theorem test_wf_accepts :
    (Instr.rdRom 0x7FFF).WellFormed ∧ (Instr.rdRam 0x8000).WellFormed ∧ (Instr.rdRam 0xDFFF).WellFormed ∧
    (Instr.rdUnmapped 0xE000).WellFormed ∧ (Instr.rdUnmapped 0xFEFF).WellFormed ∧
    (Instr.rdIo 0xFF00).WellFormed ∧ (Instr.rdIo 0xFFFF).WellFormed ∧
    (Instr.wrRom 0x7FFF 0).WellFormed ∧ (Instr.wrRam 0x8000 0).WellFormed ∧ (Instr.wrRam 0xDFFF 0).WellFormed ∧
    (Instr.wrUnmapped 0xE000 0).WellFormed ∧ (Instr.wrUnmapped 0xFEFF 0).WellFormed ∧
    (Instr.wrIo 0xFF00 0).WellFormed ∧ (Instr.wrIo 0xFFFF 0).WellFormed := by decide

/-! ### Decoding: words written out from the layouts of spec/30_encoding.md, one for every constructor -/

/-- `{00, addr, 0x00}`: words of V-B2, of every form of `RD`. -/
theorem test_decode_rd :
    decodeCommand (.bus 0b00_0000000100000000_00000000#26) = .legal (.rdRom 0x0100) ∧
    decodeCommand (.bus 0b00_1101111111111111_00000000#26) = .legal (.rdRam 0xDFFF) ∧
    decodeCommand (.bus 0b00_1110000000000000_00000000#26) = .legal (.rdUnmapped 0xE000) ∧
    decodeCommand (.bus 0b00_1111111101000100_00000000#26) = .legal .rdLy ∧
    decodeCommand (.bus 0b00_1111111101000101_00000000#26) = .legal (.rdIo 0xFF45) := by decide

/-- `{01, addr, value}`: words of V-B3, of every form of `WR`. -/
theorem test_decode_wr :
    decodeCommand (.bus 0b01_0111111111111111_00000000#26) = .legal (.wrRom 0x7FFF 0x00) ∧
    decodeCommand (.bus 0b01_1000000000000000_00010010#26) = .legal (.wrRam 0x8000 0x12) ∧
    decodeCommand (.bus 0b01_1111111011111111_01110111#26) = .legal (.wrUnmapped 0xFEFF 0x77) ∧
    decodeCommand (.bus 0b01_1111111101000100_10011001#26) = .legal (.wrLy 0x99) ∧
    decodeCommand (.bus 0b01_1111111111111111_00011111#26) = .legal (.wrIo 0xFFFF 0x1F) := by decide

/-- `{10, 0, 0}` and `{11, 0, 0}` (R88). -/
theorem test_decode_bus :
    decodeCommand (.bus 0b10_0000000000000000_00000000#26) = .legal .busStep ∧
    decodeCommand (.bus 0b11_0000000000000000_00000000#26) = .legal .busReset := by decide

/-- `{kop, off, data}` (R88). -/
theorem test_decode_bank :
    decodeCommand (.bank 0b0_00001111_00000000#17) = .legal (.bankGet 0x0F) ∧
    decodeCommand (.bank 0b1_01000100_10010000#17) = .legal (.bankSet 0x44 0x90) := by decide

/-- `{wop, arg}` (R88, V-W9, V-W10). -/
theorem test_decode_wave :
    decodeCommand (.wave 0b0000_0000000000000000#20) = .legal .wStep ∧
    decodeCommand (.wave 0b0001_0000000000000000#20) = .legal .wSample ∧
    decodeCommand (.wave 0b0010_00000000_00011111#20) = .legal (.wRamrd 31) ∧
    decodeCommand (.wave 0b0011_00001100_00000011#20) = .legal (.wRamwr 3 12) ∧
    decodeCommand (.wave 0b0100_0000000000000000#20) = .legal .wStart ∧
    decodeCommand (.wave 0b0101_0000000000000000#20) = .legal .wDiv ∧
    decodeCommand (.wave 0b0110_0000011111111111#20) = .legal (.wSetdiv 0x7FF) ∧
    decodeCommand (.wave 0b0111_000000000000000_1#20) = .legal (.wSetmode .counter) ∧
    decodeCommand (.wave 0b1000_00000000_11111110#20) = .legal (.wSetlen 254) ∧
    decodeCommand (.wave 0b1001_000000000000000_1#20) = .legal (.wSeten true) ∧
    decodeCommand (.wave 0b1010_00000000000000_10#20) = .legal (.wSetlvl .half) := by decide

/-- Reserved words: V-W13, the BANK word 0x00001, and a BUS word of each kind R83 names. -/
theorem test_decode_reserved :
    decodeCommand (.wave 0xB0000) = .illegal .waveOpcode ∧ decodeCommand (.wave 0xF0000) = .illegal .waveOpcode ∧
    decodeCommand (.wave 0x00001) = .illegal .waveOperand ∧ decodeCommand (.wave 0x20100) = .illegal .waveOperand ∧
    decodeCommand (.wave 0x70002) = .illegal .waveOperand ∧ decodeCommand (.wave 0x80100) = .illegal .waveOperand ∧
    decodeCommand (.wave 0x90002) = .illegal .waveOperand ∧ decodeCommand (.wave 0xA0004) = .illegal .waveOperand ∧
    decodeCommand (.bank 0x00001) = .illegal .getData ∧ decodeCommand (.bus 0x0000001) = .illegal .readData ∧
    decodeCommand (.bus 0x2000001) = .illegal .busOperands ∧
    decodeCommand (.bus 0x3800000) = .illegal .busOperands := by decide

/-- V-B1: the decode at every boundary. -/
theorem test_decode_address :
    decodeAddr 0x0000 = .rom 0 ∧ decodeAddr 0x7FFF = .rom 0x7FFF ∧ decodeAddr 0x8000 = .ram 0 ∧
    decodeAddr 0xBFFF = .ram 0x3FFF ∧ decodeAddr 0xC000 = .ram 0x4000 ∧ decodeAddr 0xDFFF = .ram 0x5FFF ∧
    decodeAddr 0xE000 = .unmapped ∧ decodeAddr 0xFEFF = .unmapped ∧ decodeAddr 0xFF00 = .io 0x00 ∧
    decodeAddr 0xFF43 = .io 0x43 ∧ decodeAddr 0xFF80 = .io 0x80 ∧ decodeAddr 0xFFFF = .io 0xFF := by decide

/-- Table words as the host numbers them: 26 bits in whole bytes are 32, 17 and 20 are 24. -/
theorem test_decode_table_word :
    decodeTableWord 32 0x0FF4400 = some .rdLy ∧ decodeTableWord 32 0x1800012 = some (.wrRam 0x8000 0x12) ∧
    decodeTableWord 24 0x00F00 = some (.bankGet 0x0F) ∧ decodeTableWord 24 0x14490 = some (.bankSet 0x44 0x90) ∧
    decodeTableWord 24 0x30C03 = some (.wRamwr 3 12) ∧ decodeTableWord 24 0x00000 = some .wStep ∧
    decodeTableWord 17 0x00000 = some (.bankGet 0) ∧ decodeTableWord 32 0x0000001 = none := by decide

/-- A word placed for the next step is the operation that step runs: V-W10, `W.START` from power-on. -/
theorem test_step_runs_the_placed_word :
    (nextOf (step (State.reset.withFetchWord 24 0x40000))).map (fun t => (t.wave.running, t.pending, t.outcomes)) =
      some (true, [], [.ok .none]) := by decide

/-! ### One step of each operation -/

/-- V-B2: `RD 0x0100 -> 0x01`, `RD 0x7FFF -> 0x80`. -/
theorem test_rd_rom :
    answerOf (.rdRom 0x0100) base = some (.ok (.byte 0x01)) ∧
    answerOf (.rdRom 0x7FFF) base = some (.ok (.byte 0x80)) := by decide

/-- V-B4: `RD 0xC000 -> 0x5A` (cell 0x4000) and `RD 0xC001 -> 0x00`. -/
theorem test_rd_ram :
    answerOf (.rdRam 0xC000) { base with ram := [(0x4000, 0x5A#8)] } = some (.ok (.byte 0x5A)) ∧
    answerOf (.rdRam 0xC001) { base with ram := [(0x4000, 0x5A#8)] } = some (.ok (.byte 0x00)) := by decide

/-- V-B2: `RD 0xFEFF` is `Fatal(0x01, 0xFEFF)`. -/
theorem test_rd_unmapped :
    answerOf (.rdUnmapped 0xFEFF) base = some (.fatal (.unmappedRead 0xFEFF)) ∧
    (nextOf (exec (.rdUnmapped 0xFEFF) base)).map State.fatal = some (some (.unmappedRead 0xFEFF)) := by decide

/-- V-B4: after `BANK.SET 0x44, 0x90`, `RD 0xFF44` answers the line; P1 line 15: line 3 reads 0x03. -/
theorem test_rd_ly :
    answerOf .rdLy { base with bank := [(0x44, 0x90#8)] } = some (.ok (.byte 0x00)) ∧
    answerOf .rdLy { base with video := ⟨0x03, 7⟩ } = some (.ok (.byte 0x03)) := by decide

/-- V-B4: `BANK.SET 0x04, 0xAB`; `RD 0xFF04 -> 0xAB` with `Diag(0x11, 0x04)`. -/
theorem test_rd_io :
    answerOf (.rdIo 0xFF04) { base with bank := [(0x04, 0xAB#8)] } =
      some (.okDiag (.byte 0xAB) (.ioReadUnhandled 0x04)) := by decide

/-- V-B3: `WR 0x2000, 0x01` is `Diag(0x10, (0x2000, 0x01))` and nothing changes. -/
theorem test_wr_rom :
    nextOf (exec (.wrRom 0x2000 0x01) base) = some (base.answer (.okDiag .none (.romWrite 0x2000 0x01))) := by
  decide

/-- V-B3: `WR 0xDFFF, 0xAB` stores `RAM[0x5FFF]`; a later write of the cell wins and 0x00 is stored as such. -/
theorem test_wr_ram :
    (nextOf (exec (.wrRam 0xDFFF 0xAB) base)).map State.ram = some [(0x5FFF, 0xAB#8)] ∧
    (nextOf (exec (.wrRam 0xDFFF 0x00) { base with ram := [(0, 1#8), (0x5FFF, 0xAB#8)] })).map State.ram =
      some [(0, 1#8)] := by decide

/-- V-B3: `WR 0xE000, 0x00` is `Fatal(0x02, (0xE000, 0x00))`; nothing changes but the latch. -/
theorem test_wr_unmapped :
    nextOf (exec (.wrUnmapped 0xE000 0x00) base) =
      some ({ base with fatal := some (.unmappedWrite 0xE000 0x00) }.answer (.fatal (.unmappedWrite 0xE000 0x00))) := by
  decide

/-- V-B3: `WR 0xFF44, 0x99` is `Fatal(0x03, 0x99)` and cell 0x44 keeps its value. -/
theorem test_wr_ly :
    (nextOf (exec (.wrLy 0x99) base)).map (fun t => (t.fatal, t.bankCell 0x44)) =
      some (some (.scanlineWrite 0x99), 0x00#8) := by decide

/-- V-B3: `WR 0xFF43, 0x01` stores cell 0x43 with `Diag(0x12, (0x43, 0x01))`. -/
theorem test_wr_io :
    answerOf (.wrIo 0xFF43 0x01) base = some (.okDiag .none (.ioWriteUnhandled 0x43 0x01)) ∧
    (nextOf (exec (.wrIo 0xFF43 0x01) base)).map State.bank = some [(0x43, 0x01#8)] := by decide

/-- R110: the video subsystem advances by `vstep` and the channel does not. -/
theorem test_bus_step :
    nextOf (exec .busStep base) = some ((base.setVideo (Config.vstep base.video)).answer (.ok .none)) := rfl

/-- P1 line 23: RAM and BANK zeroed, `V = vreset`; section 2.4: the channel is as before. -/
theorem test_bus_reset :
    nextOf (exec .busReset (busy (.bus 0))) =
      some ({ busy (.bus 0) with ram := [], bank := [], video := Config.vreset }.answer (.ok .none)) := rfl

/-- V-B4: `BANK.SET 0x44, 0x90`; `BANK.GET 0x44 -> 0x90`; section 2.2: the neighbour is untouched. -/
theorem test_bank_get :
    answerOf (.bankGet 0x44) { base with bank := [(0x44, 0x90#8)] } = some (.ok (.byte 0x90)) ∧
    answerOf (.bankGet 0x11) { base with bank := [(0x10, 0xAA#8)] } = some (.ok (.byte 0x00)) := by decide

/-- Section 2.2: `BANK.SET 0x44, 0x90` is no fatal condition; the later write of a cell wins. -/
theorem test_bank_set :
    nextOf (exec (.bankSet 0x44 0x90) base) = some ({ base with bank := [(0x44, 0x90#8)] }.answer (.ok .none)) ∧
    (nextOf (exec (.bankSet 0x10 0xBB) { base with bank := [(0x10, 0xAA#8)] })).map State.bank =
      some [(0x10, 0xBB#8)] := by decide

/-- V-W2: the phase wraps 31 to 0 at a reload, and V-W12 step 4: the exhaustion tick only stops the channel. -/
theorem test_w_step :
    waveAfter .wStep (withWave (running .continuous 0 0x7FF 0 31)) = some (running .continuous 0 0x7FF 1 0) ∧
    waveAfter .wStep (withWave (running .counter 0 0x7FF 1 2)) =
      some { running .counter 0 0x7FF 1 2 with running := false } := by decide

/-- V-W2: with a budget of 0x400000 and a countdown of 2; and the reload of divider 0 (V-W1). -/
theorem test_w_step_counts :
    waveAfter .wStep (withWave (running .counter 0x400000 0x7FF 2 9)) =
      some (running .counter 0x3FFFFF 0x7FF 1 9) ∧
    waveAfter .wStep (withWave (running .continuous 0 0 0 5)) = some (running .continuous 0 0 0xFFF 6) := by decide

/-- V-W5: gated by both bits, attenuated truncating. -/
theorem test_w_sample :
    answerOf .wSample (withWave (gated true true .quarter)) = some (.ok (.byte 3)) ∧
    answerOf .wSample (withWave (gated true false .full)) = some (.ok (.byte 0)) ∧
    answerOf .wSample (withWave (gated false true .full)) = some (.ok (.byte 0)) ∧
    answerOf .wSample (withWave (gated true true .half)) = some (.ok (.byte 6)) := by decide

/-- V-W6: the rows of 13 and 255. -/
theorem test_attenuate :
    attenuate 13 .half = 6 ∧ attenuate 13 .quarter = 3 ∧ attenuate 255 .half = 127 ∧ attenuate 255 .quarter = 63 ∧
    attenuate 255 .full = 255 ∧ attenuate 255 .mute = 0 := by decide

/-- V-W9: the raw entry while stopped, disabled and muted; `W.RAMRD 32` is `Fatal(0x05, 32)`. -/
theorem test_w_ramrd :
    answerOf (.wRamrd 0) (withWave (gated false false .mute)) = some (.ok (.byte 12)) ∧
    answerOf (.wRamrd 32) base = some (.fatal (.waveIndexRange 32)) := by decide

/-- V-W9: `W.RAMWR 31, 255` stores entry 31; `W.RAMWR 32, 1` leaves the table. -/
theorem test_w_ramwr :
    waveAfter (.wRamwr 31 255) base = some { Wave.init with samples := Wave.init.samples.set 31 255#8 } ∧
    waveAfter (.wRamwr 32 1) base = some Wave.init := by decide

/-- V-W10: only `running` changes. -/
theorem test_w_start : waveAfter .wStart base = some { Wave.init with running := true } := by decide

/-- V-W7: `W.SETDIV 0x7FF`; `W.DIV -> 0x07FF`. -/
theorem test_w_div : answerOf .wDiv (withWave { Wave.init with divider := 0x7FF }) = some (.ok (.half 0x07FF)) := by
  decide

/-- V-W7, S6: 0x7FF is stored; 0x800 is `Fatal(0x04, 0x0800)` and the divider stays. -/
theorem test_w_setdiv :
    waveAfter (.wSetdiv 0x7FF) base = some { Wave.init with divider := 0x7FF } ∧
    nextOf (exec (.wSetdiv 0x800) base) =
      some ({ base with fatal := some (.dividerRange 0x800) }.answer (.fatal (.dividerRange 0x800))) := by decide

/-- V-W10: only `mode` changes. -/
theorem test_w_setmode : waveAfter (.wSetmode .counter) base = some { Wave.init with mode := .counter } := by decide

/-- V-W8, S7: lengths 0, 127 and 255. -/
theorem test_w_setlen :
    waveAfter (.wSetlen 0) base = some { Wave.init with remaining := 0x400000 } ∧
    waveAfter (.wSetlen 127) base = some { Wave.init with remaining := 0x204000 } ∧
    waveAfter (.wSetlen 255) base = some { Wave.init with remaining := 0x4000 } := by decide

/-- V-W10: only `enabled` changes. -/
theorem test_w_seten : waveAfter (.wSeten true) base = some { Wave.init with enabled := true } := by decide

/-- V-W10: only `level` changes. -/
theorem test_w_setlvl : waveAfter (.wSetlvl .quarter) base = some { Wave.init with level := .quarter } := by decide

/-- V-B5: the latch answers for every port and `BUS.RESET` zeroes nothing (P4a). -/
theorem test_latch :
    answerOf (.rdRam 0x8000) { base with fatal := some (.unmappedRead 0xE000) } =
      some (.fatal (.unmappedRead 0xE000)) ∧
    nextOf (exec .busReset { base with fatal := some (.scanlineWrite 0), ram := [(0x4000, 0x5A#8)] }) =
      some ({ base with fatal := some (.scanlineWrite 0), ram := [(0x4000, 0x5A#8)] }.answer
        (.fatal (.scanlineWrite 0))) := by decide

/-- R177: the reserved word 0x00001 on the BANK port is `Fatal(0x06, word)`. -/
theorem test_step_reserved :
    (nextOf (step (base.present (.bank 0x00001)))).map (fun t => (t.fatal, t.lastOutcome)) =
      some (some (.illegalCommand (.bank 0x00001)), some (.fatal (.illegalCommand (.bank 0x00001)))) := by decide

/-! ### Witnesses: the hypotheses of each statement can be met -/

/-- Every form of `RD` and `WR` at the ends of its range, and each operand of the other operations at an end. -/
theorem witness_DecodeOfEncodeIsTheOperation :
    ∀ i ∈ ([.rdRom 0, .rdRom 0x7FFF, .rdRam 0x8000, .rdRam 0xDFFF, .rdUnmapped 0xE000, .rdUnmapped 0xFEFF, .rdLy,
      .rdIo 0xFF00, .rdIo 0xFF43, .rdIo 0xFF45, .rdIo 0xFFFF, .wrRom 0x7FFF 255, .wrRam 0xDFFF 255,
      .wrUnmapped 0xFEFF 255, .wrLy 255, .wrIo 0xFFFF 255, .busStep, .busReset, .bankGet 255, .bankSet 255 255,
      .wStep, .wSample, .wRamrd 255, .wRamwr 255 255, .wStart, .wDiv, .wSetdiv 0xFFFF, .wSetmode .counter,
      .wSetlen 255, .wSeten true, .wSetlvl .quarter] : List Instr), i.WellFormed := by decide

theorem witness_LegalWordEncodesBack :
    decodeCommand (.bus 0x1FF4499) = .legal (.wrLy 0x99) ∧ decodeCommand (.bank 0x1FFFF) = .legal (.bankSet 255 255) ∧
    decodeCommand (.wave 0xA0003) = .legal (.wSetlvl .quarter) := by decide

/-- One word on each side of each equivalence. -/
theorem witness_ReservedWordsAreExactlyTheListed :
    (∃ r, decodeCommand (.bus 0x00000FF) = .illegal r) ∧ (∃ r, decodeCommand (.bus 0x3000001) = .illegal r) ∧
    (∃ i, decodeCommand (.bus 0x1000001) = .legal i) ∧ (∃ r, decodeCommand (.bank 0x0FFFF) = .illegal r) ∧
    (∃ i, decodeCommand (.bank 0x10001) = .legal i) ∧ (∃ r, decodeCommand (.wave 0xB0000) = .illegal r) ∧
    (∃ i, decodeCommand (.wave 0xA0003) = .legal i) :=
  ⟨⟨_, rfl⟩, ⟨_, rfl⟩, ⟨_, rfl⟩, ⟨_, rfl⟩, ⟨_, rfl⟩, ⟨_, rfl⟩, ⟨_, rfl⟩⟩

/-- A row that selects a word, of each format, and a legal word. -/
theorem witness_OpcodeTableRowsSelectTheDecodedForm :
    (∃ r ∈ busRows, r.selects 0x0FF4400 ∧ r.form = .rdLy) ∧ (∃ r ∈ bankRows, r.selects 0x14490 ∧ r.form = .bankSet) ∧
    (∃ r ∈ waveRows, r.selects 0xA0003 ∧ r.form = .wSetlvl) ∧
    decodeCommand (.bus 0x0FF4400) = .legal .rdLy := by decide

/-- Each of the four ranges at both ends; the ranges exclude each other. -/
theorem witness_AddressDecodeFirstMatchWins :
    (0x0000#16).toNat < 0x8000 ∧ (0x7FFF#16).toNat < 0x8000 ∧
    (0x8000 ≤ (0x8000#16).toNat ∧ (0x8000#16).toNat < 0xE000) ∧
    (0x8000 ≤ (0xDFFF#16).toNat ∧ (0xDFFF#16).toNat < 0xE000) ∧
    (0xE000 ≤ (0xE000#16).toNat ∧ (0xE000#16).toNat < 0xFF00) ∧
    (0xE000 ≤ (0xFEFF#16).toNat ∧ (0xFEFF#16).toNat < 0xFF00) ∧
    0xFF00 ≤ (0xFF00#16).toNat ∧ 0xFF00 ≤ (0xFFFF#16).toNat := by decide

theorem witness_StepRunsTheDecodedOperation :
    (busy (.wave 0x40000)).pending = [.wave 0x40000] ∧ decodeCommand (.wave 0x40000) = .legal .wStart := by decide

theorem witness_StepOnReservedWordIsFatal :
    (busy (.wave 0xB0000)).fatal = none ∧ (busy (.wave 0xB0000)).pending = [.wave 0xB0000] ∧
    decodeCommand (.wave 0xB0000) = .illegal .waveOpcode := by decide

theorem witness_StepWithNothingPendingChangesNothing : base.pending = [] := by decide

/-- A latched state, with a command waiting: also the premise of every `yieldsToLatch`. -/
theorem witness_LatchedOperationsChangeNothing :
    (∃ s : State, s.fatal = some (.unmappedRead 0xE000) ∧ s.pending = [.bus 0x3000000]) :=
  ⟨{ busy (.bus 0x3000000) with fatal := some (.unmappedRead 0xE000) }, rfl, rfl⟩

/-- An address of each of the five cases, and a live state. -/
theorem witness_RdIsTheFormOfTheDecodedTarget :
    decodeAddr 0x7FFF = .rom 0x7FFF ∧ decodeAddr 0x8000 = .ram 0 ∧ decodeAddr 0xE000 = .unmapped ∧
    decodeAddr 0xFF44 = .io 0x44#8 ∧ decodeAddr 0xFF43 = .io 0x43#8 ∧ (0x43#8) ≠ 0x44#8 ∧ base.fatal = none ∧
    InUnmapped 0xE000 ∧ InUnmapped 0xFEFF ∧ InIo 0xFF00 ∧ InIo 0xFF45 ∧ InIo 0xFFFF ∧
    (¬ InUnmapped 0xDFFF ∧ ¬ InIo 0xDFFF) ∧ ¬ InUnmapped 0xFF44 ∧ ¬ InIo 0xFF44 := by decide

/-- An address of each of the five cases, a live state, and each range of the last clauses. -/
theorem witness_WrIsTheFormOfTheDecodedTarget :
    decodeAddr 0x7FFF = .rom 0x7FFF ∧ decodeAddr 0x8000 = .ram 0 ∧ decodeAddr 0xE000 = .unmapped ∧
    decodeAddr 0xFF44 = .io 0x44#8 ∧ decodeAddr 0xFF43 = .io 0x43#8 ∧ (0x43#8) ≠ 0x44#8 ∧ base.fatal = none ∧
    InRom 0x0000 ∧ InRom 0x7FFF ∧ InRam 0x8000 ∧ InRam 0xDFFF ∧ InUnmapped 0xE000 ∧ InUnmapped 0xFEFF ∧
    InIo 0xFF00 ∧ InIo 0xFF43 ∧ InIo 0xFF45 ∧ InIo 0xFFFF := by decide

/-- The ends of the range, and a write attempt that completes. -/
theorem witness_RdRomAnswersTheImageByte :
    base.fatal = none ∧ (0x0000#16).toNat < 0x8000 ∧ (0x7FFF#16).toNat < 0x8000 ∧
    ∃ u, memWrite 0x7FFF 0xFF base = .next u := ⟨rfl, by decide, by decide, _, rfl⟩

theorem witness_RdRamAnswersTheCell :
    base.fatal = none ∧ 0x8000 ≤ (0x8000#16).toNat ∧ (0x8000#16).toNat < 0xE000 ∧
    0x8000 ≤ (0xDFFF#16).toNat ∧ (0xDFFF#16).toNat < 0xE000 ∧ ∃ t, exec .busReset base = .next t :=
  ⟨rfl, by decide, by decide, by decide, by decide, _, rfl⟩

theorem witness_RdUnmappedIsFatal :
    base.fatal = none ∧ 0xE000 ≤ (0xE000#16).toNat ∧ (0xE000#16).toNat ≤ 0xFEFF ∧
    0xE000 ≤ (0xFEFF#16).toNat ∧ (0xFEFF#16).toNat ≤ 0xFEFF := by decide

theorem witness_RdIoAnswersTheCellWithADiagnostic :
    base.fatal = none ∧ 0xFF00 ≤ (0xFF00#16).toNat ∧ 0xFF00#16 ≠ 0xFF44#16 ∧
    0xFF00 ≤ (0xFF43#16).toNat ∧ 0xFF43#16 ≠ 0xFF44#16 ∧ 0xFF00 ≤ (0xFFFF#16).toNat ∧ 0xFFFF#16 ≠ 0xFF44#16 ∧
    (∃ t, exec (.wrIo 0xFFFF 1) base = .next t) ∧ ∃ t, exec (.bankSet (ioOffset 0xFFFF) 1) base = .next t :=
  ⟨rfl, by decide, by decide, by decide, by decide, by decide, by decide, ⟨_, rfl⟩, _, rfl⟩

theorem witness_RdLyAnswersTheCurrentLine :
    base.fatal = none ∧ Instr.bankSet 0x44 0x90 ≠ .busStep ∧ Instr.bankSet 0x44 0x90 ≠ .busReset ∧
    ∃ t, exec (.bankSet 0x44 0x90) base = .next t ∧ t.fatal = none :=
  ⟨rfl, by decide, by decide, _, rfl, rfl⟩

theorem witness_WrRomDiscardsAndReports :
    base.fatal = none ∧ (0x0000#16).toNat < 0x8000 ∧ (0x7FFF#16).toNat < 0x8000 := by decide

theorem witness_WrRamStoresTheByte :
    (busy (.bus 0)).fatal = none ∧ 0x8000 ≤ (0x8000#16).toNat ∧ (0x8000#16).toNat < 0xE000 ∧
    0x8000 ≤ (0xDFFF#16).toNat ∧ (0xDFFF#16).toNat < 0xE000 := by decide

theorem witness_WrUnmappedIsFatal :
    (busy (.bus 0)).fatal = none ∧ 0xE000 ≤ (0xE000#16).toNat ∧ (0xE000#16).toNat ≤ 0xFEFF ∧
    0xE000 ≤ (0xFEFF#16).toNat ∧ (0xFEFF#16).toNat ≤ 0xFEFF := by decide

theorem witness_WrIoStoresTheByteWithADiagnostic :
    (busy (.bus 0)).fatal = none ∧ 0xFF00 ≤ (0xFF00#16).toNat ∧ 0xFF00#16 ≠ 0xFF44#16 ∧
    0xFF00 ≤ (0xFF45#16).toNat ∧ 0xFF45#16 ≠ 0xFF44#16 ∧ 0xFF00 ≤ (0xFFFF#16).toNat ∧ 0xFFFF#16 ≠ 0xFF44#16 := by
  decide

theorem witness_WrLyIsFatal : (busy (.bus 0)).fatal = none := by decide

theorem witness_BusResetRestoresPowerOnZero : (busy (.bus 0)).fatal = none := by decide

theorem witness_BusStepAdvancesTheVideoSubsystem : (busy (.bus 0)).fatal = none := by decide

theorem witness_BankGetAnswersTheCell : (busy (.bus 0)).fatal = none := by decide

theorem witness_BankSetStoresOneCell : (busy (.bus 0)).fatal = none ∧ (0x43#8) ≠ 0x44#8 := by decide

/-- Each clause of `W.STEP`: stopped; the exhaustion tick; counting in either mode, at a countdown of 0 and not. -/
theorem witness_WStepClauses :
    base.fatal = none ∧ base.wave.running = false ∧
    (let w := (withWave (running .counter 0 0x7FF 1 2)).wave
     w.running = true ∧ w.mode = .counter ∧ w.remaining = 0#23) ∧
    (let w := (withWave (running .counter 1 0x7FE 0 9)).wave
     w.running = true ∧ w.mode = .counter ∧ w.remaining ≠ 0#23 ∧ w.counter = 0#13) ∧
    (let w := (withWave (running .continuous 0 0 0xFFF 31)).wave
     w.running = true ∧ w.mode = .continuous ∧ w.counter ≠ 0#13) := by decide

/-- The gate closed by each bit, and open. -/
theorem witness_WSampleAnswersTheAttenuatedEntry :
    (withWave (gated true true .quarter)).fatal = none ∧
    ((withWave (gated true true .quarter)).wave.running = true ∧
      (withWave (gated true true .quarter)).wave.enabled = true) ∧
    ¬ ((withWave (gated true false .full)).wave.running = true ∧
      (withWave (gated true false .full)).wave.enabled = true) ∧
    ¬ ((withWave (gated false true .full)).wave.running = true ∧
      (withWave (gated false true .full)).wave.enabled = true) := by decide

theorem witness_WRamrdAnswersTheEntry :
    base.fatal = none ∧ (0#8).toNat < 32 ∧ (31#8).toNat < 32 ∧ 32 ≤ (32#8).toNat ∧ 32 ≤ (255#8).toNat := by decide

theorem witness_WRamwrStoresTheEntry :
    base.fatal = none ∧ (0#8).toNat < 32 ∧ (31#8).toNat < 32 ∧ 32 ≤ (32#8).toNat ∧ 32 ≤ (255#8).toNat ∧
    (30 : Fin 32).val ≠ (31#8).toNat := by decide

theorem witness_WSetdivWritesTheDivider :
    base.fatal = none ∧ (0#16).toNat < 0x800 ∧ (0x7FF#16).toNat < 0x800 ∧ 0x800 ≤ (0x800#16).toNat ∧
    0x800 ≤ (0xFFFF#16).toNat := by decide

theorem witness_WStartSetsRunningOnly : (busy (.bus 0)).fatal = none := by decide
theorem witness_WSetlenLoadsTheBudget : (busy (.bus 0)).fatal = none := by decide
theorem witness_WSetmodeWritesTheMode : (busy (.bus 0)).fatal = none := by decide
theorem witness_WSetenWritesTheGate : (busy (.bus 0)).fatal = none := by decide
theorem witness_WSetlvlWritesTheLevel : (busy (.bus 0)).fatal = none := by decide
theorem witness_WDivAnswersTheDivider : (busy (.bus 0)).fatal = none := by decide

/-- A state with bytes at both ends of each store, before a store, a tick and a reset. -/
theorem witness_EveryStepKeepsTheInvariant :
    (busy (.bus 0x1DFFF00)).Inv ∧ (∃ t, step (busy (.bus 0x1DFFF00)) = .next t) ∧
    (busy (.wave 0x00000)).Inv ∧ ∃ t, step (busy (.wave 0x00000)) = .next t :=
  ⟨by decide, ⟨_, rfl⟩, by decide, ⟨_, rfl⟩⟩

theorem witness_FatalChangesNothingButTheLatch :
    ∃ t, exec (.wSetdiv 0x800) (busy (.bus 0)) = .next t ∧
      t.lastOutcome = some (.fatal (.dividerRange 0x800)) := ⟨_, rfl, by decide⟩

/-- The second clause, for a legal word and for a reserved one. -/
theorem witness_FatalChangesNothingButTheLatch_step :
    ((busy (.wave 0x60800)).pending = [.wave 0x60800] ∧
      ∃ t, step (busy (.wave 0x60800)) = .next t ∧ t.lastOutcome = some (.fatal (.dividerRange 0x800))) ∧
    (busy (.wave 0x00001)).pending = [.wave 0x00001] ∧
      ∃ t, step (busy (.wave 0x00001)) = .next t ∧
        t.lastOutcome = some (.fatal (.illegalCommand (.wave 0x00001))) :=
  ⟨⟨rfl, _, rfl, by decide⟩, rfl, _, rfl, by decide⟩

/-- An operation that is fatal, and the same operation where it is not. -/
theorem witness_FatalConditionsAreTheTabulated :
    (busy (.bus 0)).fatal = none ∧
    (∃ t, exec (.wRamrd 32) (busy (.bus 0)) = .next t ∧ raises (.wRamrd 32) = some (.waveIndexRange 32)) ∧
    ∃ t, exec (.wRamrd 31) (busy (.bus 0)) = .next t ∧ raises (.wRamrd 31) = none :=
  ⟨rfl, ⟨_, rfl, by decide⟩, ⟨_, rfl, by decide⟩⟩

theorem witness_DiagnosticsAreTheTabulated :
    (busy (.bus 0)).fatal = none ∧
    (∃ t, exec (.wrIo 0xFFFF 1) (busy (.bus 0)) = .next t ∧
      reports (.wrIo 0xFFFF 1) = some (.ioWriteUnhandled 0xFF 1)) ∧
    ∃ t, exec (.bankSet 0xFF 1) (busy (.bus 0)) = .next t ∧ reports (.bankSet 0xFF 1) = none :=
  ⟨rfl, ⟨_, rfl, by decide⟩, ⟨_, rfl, by decide⟩⟩

/-- Each field of the channel is written by some operation from some state. -/
theorem witness_WaveFieldsAreWrittenAsTabulated :
    (∃ t, exec .wStart base = .next t ∧ t.wave.running ≠ base.wave.running) ∧
    (∃ t, exec (.wSeten true) base = .next t ∧ t.wave.enabled ≠ base.wave.enabled) ∧
    (∃ t, exec (.wSetlen 255) base = .next t ∧ t.wave.remaining ≠ base.wave.remaining) ∧
    (∃ t, exec (.wSetlvl .full) base = .next t ∧ t.wave.level ≠ base.wave.level) ∧
    (∃ t, exec (.wSetdiv 0x7FF) base = .next t ∧ t.wave.divider ≠ base.wave.divider) ∧
    (∃ t, exec (.wSetmode .counter) base = .next t ∧ t.wave.mode ≠ base.wave.mode) ∧
    (∃ t, exec (.wRamwr 31 9) base = .next t ∧ t.wave.sampleAt 31 ≠ base.wave.sampleAt 31) ∧
    ∃ t, exec .wStep (busy (.bus 0)) = .next t ∧ t.wave.counter ≠ (busy (.bus 0)).wave.counter ∧
      t.wave.index ≠ (busy (.bus 0)).wave.index ∧ t.wave.remaining ≠ (busy (.bus 0)).wave.remaining :=
  ⟨⟨_, rfl, by decide⟩, ⟨_, rfl, by decide⟩, ⟨_, rfl, by decide⟩, ⟨_, rfl, by decide⟩, ⟨_, rfl, by decide⟩,
    ⟨_, rfl, by decide⟩, ⟨_, rfl, by decide⟩, _, rfl, by decide, by decide, by decide⟩

/-- A store of each kind, with an offset outside the stored byte. -/
theorem witness_StoresChangeOnlyTheirByte :
    (∃ t, exec (.wrRam 0xDFFF 1) (busy (.bus 0)) = .next t) ∧ Instr.wrRam 0xDFFF 1 ≠ .busReset ∧
    storesRam (.wrRam 0xDFFF 1) ≠ some 0x5FFE ∧
    (∃ t, exec (.wrIo 0xFFFF 1) (busy (.bus 0)) = .next t) ∧ storesBank (.wrIo 0xFFFF 1) ≠ some 0xFE ∧
    (∃ t, exec .wStep (busy (.bus 0)) = .next t) ∧ storesRam .wStep ≠ some 0 ∧ storesBank .wStep ≠ some 0 :=
  ⟨⟨_, rfl⟩, by decide, by decide, ⟨_, rfl⟩, by decide, ⟨_, rfl⟩, by decide, by decide⟩

/-- A WAVE operation from two states that differ in the bank only; a BUS operation from two that differ in the
channel only. -/
theorem witness_HalvesDoNotSeeEachOther :
    ((busy (.bus 0)).fatal = (((busy (.bus 0)).setBank [])).fatal ∧
      (busy (.bus 0)).wave = ((busy (.bus 0)).setBank []).wave ∧ Instr.wStep.port = .wave ∧
      (∃ t, exec .wStep (busy (.bus 0)) = .next t) ∧ ∃ t, exec .wStep ((busy (.bus 0)).setBank []) = .next t) ∧
    ((busy (.bus 0)).fatal = (((busy (.bus 0)).setWave Wave.init)).fatal ∧
      (busy (.bus 0)).sameDispatcher ((busy (.bus 0)).setWave Wave.init) ∧ Instr.busReset.port ≠ .wave ∧
      (∃ t, exec .busReset (busy (.bus 0)) = .next t) ∧
      ∃ t, exec .busReset ((busy (.bus 0)).setWave Wave.init) = .next t) :=
  ⟨⟨rfl, rfl, rfl, ⟨_, rfl⟩, ⟨_, rfl⟩⟩, ⟨rfl, ⟨rfl, rfl, rfl, rfl⟩, by decide, ⟨_, rfl⟩, ⟨_, rfl⟩⟩⟩

theorem witness_HalvesCommute :
    (Instr.wrRam 0x8000 7).port ≠ .wave ∧ Instr.wStep.port = .wave ∧
    ∃ si sij sj sji, exec (.wrRam 0x8000 7) (busy (.bus 0)) = .next si ∧ exec .wStep si = .next sij ∧
      exec .wStep (busy (.bus 0)) = .next sj ∧ exec (.wrRam 0x8000 7) sj = .next sji ∧
      si.fatal = none ∧ sj.fatal = none :=
  ⟨by decide, rfl, _, _, _, _, rfl, rfl, rfl, rfl, rfl, rfl⟩

/-- An address of each readable and writable range, at an end. -/
theorem witness_ReadAfterWrite :
    base.fatal = none ∧ InRom 0x7FFF ∧ InRam 0x8000 ∧ InRam 0xDFFF ∧ InIo 0xFF00 ∧ InIo 0xFF43 ∧ InIo 0xFF45 ∧
    InIo 0xFFFF ∧ (0xDFFF#16).toNat < 0xE000 ∧ 0xFF00 ≤ (0xFF00#16).toNat ∧ 0xFF00#16 ≠ 0xFF44#16 := by decide

theorem witness_BankPortAndBusSeeTheSameCells :
    base.fatal = none ∧ (0x00#8) ≠ 0x44#8 ∧ (0x43#8) ≠ 0x44#8 ∧ (0xFF#8) ≠ 0x44#8 := by decide

theorem witness_BankCellsAreIndependent :
    (busy (.bus 0)).fatal = none ∧ (0x00#8) ≠ 0xFF#8 ∧ (busy (.bus 0)).bank.wf 0x100 := by decide

theorem witness_LineShadowedCellIsInvisibleToTheBus :
    Instr.rdLy.WellFormed ∧ Instr.rdLy.port = .bus ∧ (∃ t, exec .rdLy base = .next t) ∧
    (∃ t, exec .rdLy (base.setBankCell 0x44#8 0x90) = .next t) ∧ (Instr.wrIo 0xFF45 1).WellFormed ∧
    (∃ t, exec (.wrIo 0xFF45 1) base = .next t) ∧
    ∃ t, exec (.wrIo 0xFF45 1) (base.setBankCell 0x44#8 0x90) = .next t :=
  ⟨by decide, rfl, ⟨_, rfl⟩, ⟨_, rfl⟩, by decide, ⟨_, rfl⟩, ⟨_, rfl⟩⟩

theorem witness_NoStepWritesTheImage : ∃ t, step (busy (.bus 0x10000FF)) = .next t := ⟨_, rfl⟩

/-- A `BANK.SET` of cell 0x44 between two reads of 0xFF44. -/
theorem witness_LineMovesOnlyAtStepAndReset :
    Instr.bankSet 0x44 0x90 ≠ .busStep ∧ Instr.bankSet 0x44 0x90 ≠ .busReset ∧ base.fatal = none ∧
    ∃ t u u', exec (.bankSet 0x44 0x90) base = .next t ∧ t.fatal = none ∧
      memRead 0xFF44#16 base = .next u ∧ memRead 0xFF44#16 t = .next u' :=
  ⟨by decide, by decide, rfl, _, _, _, rfl, rfl, rfl, rfl⟩

/-- A budget of 3 (V-W12), and of 0, where the first step is the exhaustion tick. -/
theorem witness_ExhaustionTick :
    (busy (.bus 0)).fatal = none ∧ (busy (.bus 0)).wave.running = true ∧ (busy (.bus 0)).wave.mode = .counter ∧
    (busy (.bus 0)).wave.remaining = 3#23 ∧
    (let s := withWave (running .counter 0 0x7FF 1 2)
     s.fatal = none ∧ s.wave.running = true ∧ s.wave.mode = .counter ∧ s.wave.remaining = 0#23) := by decide

theorem witness_PeriodLaw :
    (let s := withWave (running .continuous 0 0x7FF 0 0)
     s.fatal = none ∧ s.wave.running = true ∧ s.wave.mode = .continuous ∧ s.wave.counter = 0#13) ∧
    (let s := withWave (running .continuous 0 0x000 0 31)
     s.fatal = none ∧ s.wave.running = true ∧ s.wave.mode = .continuous ∧ s.wave.counter = 0#13) ∧ 1 ≤ 1 := by
  decide

/-- V-W4: countdown 3, the new divider 0x7FF; and the last value before the reload. -/
theorem witness_DividerChangeWaitsForTheReload :
    (withWave (running .continuous 0 0x7FE 3 1)).fatal = none ∧ (0x7FF#16).toNat < 0x800 ∧
    (withWave (running .continuous 0 0x7FE 3 1)).wave.counter ≠ 0#13 ∧
    (withWave (running .continuous 0 0x7FE 1 1)).wave.counter ≠ 0#13 := by decide

/-- A start, and an exhaustion. -/
theorem witness_RunningIsSetByStartAndClearedByExhaustion :
    (∃ t, exec .wStart base = .next t ∧ base.wave.running = false ∧ t.wave.running = true) ∧
    (∃ t, exec .wStep (withWave (running .counter 0 0x7FF 1 2)) = .next t ∧
      (withWave (running .counter 0 0x7FF 1 2)).wave.running = true ∧ t.wave.running = false) ∧
    base.fatal = none :=
  ⟨⟨_, rfl, rfl, rfl⟩, ⟨_, rfl, rfl, rfl⟩, rfl⟩

end Sys2Proof.Tests
end

/-! SUPPORT and SETTLEMENT. The Wave Channel under every operation (spec/10_state.md R22, R32): the tick field by
field, the one inversion lemma `exec_waveWrite` that says what any operation does to the channel, and from it the
table of R32, a theorem per field. -/

namespace Sys2Proof.Machine

section WaveTick

variable (w : Wave)

/-! ### The clauses of the tick, field by field -/

@[simp] theorem Wave.reload_running : w.reload.running = w.running := by unfold Wave.reload; split <;> rfl
@[simp] theorem Wave.reload_enabled : w.reload.enabled = w.enabled := by unfold Wave.reload; split <;> rfl
@[simp] theorem Wave.reload_remaining : w.reload.remaining = w.remaining := by unfold Wave.reload; split <;> rfl
@[simp] theorem Wave.reload_level : w.reload.level = w.level := by unfold Wave.reload; split <;> rfl
@[simp] theorem Wave.reload_divider : w.reload.divider = w.divider := by unfold Wave.reload; split <;> rfl
@[simp] theorem Wave.reload_mode : w.reload.mode = w.mode := by unfold Wave.reload; split <;> rfl
@[simp] theorem Wave.reload_samples : w.reload.samples = w.samples := by unfold Wave.reload; split <;> rfl

@[simp] theorem Wave.countDown_running : w.countDown.running = w.running := rfl
@[simp] theorem Wave.countDown_enabled : w.countDown.enabled = w.enabled := rfl
@[simp] theorem Wave.countDown_remaining : w.countDown.remaining = w.remaining := rfl
@[simp] theorem Wave.countDown_level : w.countDown.level = w.level := rfl
@[simp] theorem Wave.countDown_divider : w.countDown.divider = w.divider := rfl
@[simp] theorem Wave.countDown_counter : w.countDown.counter = w.counter - 1#13 := rfl
@[simp] theorem Wave.countDown_mode : w.countDown.mode = w.mode := rfl
@[simp] theorem Wave.countDown_samples : w.countDown.samples = w.samples := rfl
@[simp] theorem Wave.countDown_index : w.countDown.index = w.index := rfl

/-- Away from 0 a subtraction of 1 takes 1 from the number. -/
theorem toNat_sub_one_add_one {n : Nat} {x : BitVec n} (hx : x.toNat ≠ 0) : (x - 1#n).toNat + 1 = x.toNat := by
  have := x.isLt
  have h1 : 1 % 2 ^ n = 1 := Nat.mod_eq_of_lt (by omega)
  have hle : 1#n ≤ x := by rw [BitVec.le_def, BitVec.toNat_ofNat, h1]; omega
  rw [BitVec.toNat_sub_of_le hle, BitVec.toNat_ofNat, h1]
  omega

/-- Clauses (c) and (d) on the countdown: reloaded at 0, then one less. -/
theorem Wave.reload_countDown_counter :
    w.reload.countDown.counter.toNat + 1 =
      if w.counter = 0#13 then 2 * (0x800 - w.divider.toNat) else w.counter.toNat := by
  rw [Wave.countDown_counter]
  by_cases h : w.counter = 0#13
  · have hr : (reloadValue w.divider).toNat = 2 * (0x800 - w.divider.toNat) := reloadValue_toNat _
    have hd := w.divider.isLt
    have hne : (reloadValue w.divider).toNat ≠ 0 := by omega
    rw [if_pos h, w.reload_zero h, ← hr]
    exact toNat_sub_one_add_one hne
  · rw [if_neg h, w.reload_nonzero h]
    exact toNat_sub_one_add_one fun e => h (BitVec.eq_of_toNat_eq e)

/-- Clause (c) on the phase: kept, or the next of 32. -/
theorem Wave.reload_countDown_index :
    w.reload.countDown.index = w.index ∨ w.reload.countDown.index.toNat = (w.index.toNat + 1) % 32 := by
  by_cases h : w.counter = 0#13
  · exact .inr (by simp [Wave.reload_zero w h, BitVec.toNat_add])
  · exact .inl (by simp [Wave.reload_nonzero w h])

/-- Everything a tick can do: nothing, the exhaustion tick, or clauses (c) and (d) with the budget kept or one tick
less. -/
theorem Wave.tick_cases :
    w.tick = w ∨
    (w.running = true ∧ w.mode = .counter ∧ w.remaining = 0#23 ∧ w.tick = w.setRunning false) ∨
    ∃ n, (n = w.remaining ∨ n.toNat + 1 = w.remaining.toNat) ∧
      w.tick = (w.setRemaining n).reload.countDown := by
  cases hr : w.running with
  | false => exact .inl (w.tick_stopped hr)
  | true =>
    cases hm : w.mode with
    | continuous => exact .inr (.inr ⟨w.remaining, .inl rfl, w.tick_continuous hr hm⟩)
    | counter =>
      by_cases h0 : w.remaining = 0#23
      · exact .inr (.inl ⟨rfl, rfl, h0, w.tick_exhausted hr hm h0⟩)
      · have hne : w.remaining.toNat ≠ 0 := fun e => h0 (BitVec.eq_of_toNat_eq e)
        exact .inr (.inr ⟨_, .inr (toNat_sub_one_add_one hne), w.tick_counter hr hm h0⟩)

/-! ### The tick, field by field -/

/-- The fields no tick writes. -/
theorem Wave.tick_frame :
    w.tick.enabled = w.enabled ∧ w.tick.level = w.level ∧ w.tick.divider = w.divider ∧ w.tick.mode = w.mode ∧
      w.tick.samples = w.samples := by
  obtain h | ⟨-, -, -, h⟩ | ⟨n, -, h⟩ := w.tick_cases <;> simp [h]

@[simp] theorem Wave.tick_enabled : w.tick.enabled = w.enabled := have ⟨h, _⟩ := w.tick_frame; h
@[simp] theorem Wave.tick_level : w.tick.level = w.level := have ⟨_, h, _⟩ := w.tick_frame; h
@[simp] theorem Wave.tick_divider : w.tick.divider = w.divider := have ⟨_, _, h, _⟩ := w.tick_frame; h
@[simp] theorem Wave.tick_mode : w.tick.mode = w.mode := have ⟨_, _, _, h, _⟩ := w.tick_frame; h
@[simp] theorem Wave.tick_samples : w.tick.samples = w.samples := have ⟨_, _, _, _, h⟩ := w.tick_frame; h

/-- A tick changes `running` only by the exhaustion tick, to false. -/
theorem Wave.tick_running_changed (h : w.tick.running ≠ w.running) :
    w.mode = .counter ∧ w.remaining = 0#23 ∧ w.tick.running = false := by
  obtain ht | ⟨-, hm, h0, ht⟩ | ⟨n, -, ht⟩ := w.tick_cases
  · exact absurd (by rw [ht]) h
  · exact ⟨hm, h0, by simp [ht]⟩
  · exact absurd (by simp [ht]) h

/-- A tick changes the budget only by one. -/
theorem Wave.tick_remaining_changed (h : w.tick.remaining ≠ w.remaining) :
    w.tick.remaining.toNat + 1 = w.remaining.toNat := by
  obtain ht | ⟨-, -, -, ht⟩ | ⟨n, hn, ht⟩ := w.tick_cases
  · exact absurd (by rw [ht]) h
  · exact absurd (by simp [ht]) h
  · have hrem : w.tick.remaining = n := by simp [ht]
    rw [hrem] at h ⊢
    exact hn.resolve_left h

/-- A tick changes the countdown only by clauses (c) and (d). -/
theorem Wave.tick_counter_changed (h : w.tick.counter ≠ w.counter) :
    w.tick.counter.toNat + 1 =
      if w.counter = 0#13 then 2 * (0x800 - w.divider.toNat) else w.counter.toNat := by
  obtain ht | ⟨-, -, -, ht⟩ | ⟨n, -, ht⟩ := w.tick_cases
  · exact absurd (by rw [ht]) h
  · exact absurd (by simp [ht]) h
  · rw [ht]; exact (w.setRemaining n).reload_countDown_counter

/-- A tick moves the phase only to the next of 32. -/
theorem Wave.tick_index_changed (h : w.tick.index ≠ w.index) :
    w.tick.index.toNat = (w.index.toNat + 1) % 32 := by
  obtain ht | ⟨-, -, -, ht⟩ | ⟨n, -, ht⟩ := w.tick_cases
  · exact absurd (by rw [ht]) h
  · exact absurd (by simp [ht]) h
  · rw [ht] at h ⊢; exact (w.setRemaining n).reload_countDown_index.resolve_left h

/-- A store to an entry of the table leaves every other entry. -/
theorem Wave.sampleAt_setSample_other {i k : Fin 32} (a : Byte) (h : i ≠ k) :
    (w.setSample i a).sampleAt k = w.sampleAt k := by
  have hne : i.val ≠ k.val := fun e => h (Fin.ext e)
  simp [Wave.sampleAt, Vector.getElem_set_ne _ _ hne]

/-- The table decides what its entries are. -/
theorem Wave.sampleAt_congr {v : Wave} (h : v.samples = w.samples) (k : Fin 32) :
    v.sampleAt k = w.sampleAt k := by rw [Wave.sampleAt, Wave.sampleAt, h]

/-- A stopped channel's output is 0. -/
theorem Wave.output_stopped (h : w.running = false) : w.output = 0#8 := by
  simp [Wave.output, Wave.gateOpen, h]

end WaveTick

/-! ### What an operation does to the channel -/

/-- `WaveWrite w i v`: the operation `i` may take the channel from `w` to `v` (R32, the rows of the table). -/
inductive WaveWrite (w : Wave) : Instr → Wave → Prop
  /-- Nothing is written: the operation is latched, fatal, or no writer of the channel. -/
  | kept (i : Instr) : WaveWrite w i w
  | step : WaveWrite w .wStep w.tick
  | ramwr (j a : Byte) (h : j.toNat < 32) : WaveWrite w (.wRamwr j a) (w.setSample ⟨j.toNat, h⟩ a)
  | start : WaveWrite w .wStart (w.setRunning true)
  | setdiv (v : BitVec 16) : WaveWrite w (.wSetdiv v) (w.setDivider (v.extractLsb' 0 11))
  | setmode (m : Mode) : WaveWrite w (.wSetmode m) (w.setMode m)
  | setlen (len : Byte) : WaveWrite w (.wSetlen len) (w.setRemaining (lengthBudget len))
  | seten (b : Bool) : WaveWrite w (.wSeten b) (w.setEnabled b)
  | setlvl (l : Level) : WaveWrite w (.wSetlvl l) (w.setLevel l)

/-- The effect of every operation on the channel is a row of the table. -/
theorem effect_waveWrite {i : Instr} {s t : State} (h : effect i s = .next t) : WaveWrite s.wave i t.wave := by
  cases i with
  | wStep => cases h; exact .step
  | wStart => cases h; exact .start
  | wSetmode m => cases h; exact .setmode m
  | wSetlen len => cases h; exact .setlen len
  | wSeten b => cases h; exact .seten b
  | wSetlvl l => cases h; exact .setlvl l
  | wRamwr j a =>
    by_cases hj : j.toNat < 32
    · simp only [effect, hj, dite_true] at h
      cases h; exact .ramwr j a hj
    · simp only [effect, hj, dite_false] at h
      cases h; exact .kept _
  | wSetdiv v =>
    by_cases hv : v.toNat < 0x800
    · simp only [effect, hv, if_true] at h
      cases h; exact .setdiv v
    · simp only [effect, hv, if_false] at h
      cases h; exact .kept _
  | wRamrd j =>
    by_cases hj : j.toNat < 32
    · simp only [effect, hj, dite_true] at h
      cases h; exact .kept _
    · simp only [effect, hj, dite_false] at h
      cases h; exact .kept _
  | _ => cases h; exact .kept _

/-- Everything `exec` can do to the channel. -/
theorem exec_waveWrite {i : Instr} {s t : State} (h : exec i s = .next t) : WaveWrite s.wave i t.wave := by
  obtain ⟨f, -, rfl⟩ | ⟨-, he⟩ := exec_cases h
  · exact .kept i
  · exact effect_waveWrite he

section WaveTable

variable {w v : Wave} {i : Instr} (h : WaveWrite w i v)
include h

/-! ### The columns of the table -/

/-- `running` changes by the exhaustion tick to false and by `W.START` to true. -/
theorem WaveWrite.running_changed (hne : v.running ≠ w.running) :
    (i = .wStep ∧ w.mode = .counter ∧ w.remaining = 0#23 ∧ v.running = false) ∨
      (i = .wStart ∧ v.running = true) := by
  cases h with
  | step => exact .inl ⟨rfl, w.tick_running_changed hne⟩
  | start => exact .inr ⟨rfl, rfl⟩
  | _ => exact absurd rfl hne

theorem WaveWrite.enabled_changed (hne : v.enabled ≠ w.enabled) : ∃ b, i = .wSeten b := by
  cases h with
  | seten b => exact ⟨b, rfl⟩
  | step => exact absurd w.tick_enabled hne
  | _ => exact absurd rfl hne

theorem WaveWrite.remaining_changed (hne : v.remaining ≠ w.remaining) :
    (i = .wStep ∧ v.remaining.toNat + 1 = w.remaining.toNat) ∨ ∃ len, i = .wSetlen len := by
  cases h with
  | step => exact .inl ⟨rfl, w.tick_remaining_changed hne⟩
  | setlen len => exact .inr ⟨len, rfl⟩
  | _ => exact absurd rfl hne

theorem WaveWrite.level_changed (hne : v.level ≠ w.level) : ∃ l, i = .wSetlvl l := by
  cases h with
  | setlvl l => exact ⟨l, rfl⟩
  | step => exact absurd w.tick_level hne
  | _ => exact absurd rfl hne

theorem WaveWrite.divider_changed (hne : v.divider ≠ w.divider) : ∃ d, i = .wSetdiv d := by
  cases h with
  | setdiv d => exact ⟨d, rfl⟩
  | step => exact absurd w.tick_divider hne
  | _ => exact absurd rfl hne

theorem WaveWrite.counter_changed (hne : v.counter ≠ w.counter) :
    i = .wStep ∧ v.counter.toNat + 1 =
      if w.counter = 0#13 then 2 * (0x800 - w.divider.toNat) else w.counter.toNat := by
  cases h with
  | step => exact ⟨rfl, w.tick_counter_changed hne⟩
  | _ => exact absurd rfl hne

theorem WaveWrite.mode_changed (hne : v.mode ≠ w.mode) : ∃ m, i = .wSetmode m := by
  cases h with
  | setmode m => exact ⟨m, rfl⟩
  | step => exact absurd w.tick_mode hne
  | _ => exact absurd rfl hne

/-- An entry of the table changes by `W.RAMWR` of that entry. -/
theorem WaveWrite.sampleAt_changed (k : Fin 32) (hne : v.sampleAt k ≠ w.sampleAt k) :
    ∃ j a, i = .wRamwr j a ∧ j.toNat = k.val := by
  cases h with
  | ramwr j a hj =>
    refine ⟨j, a, rfl, ?_⟩
    by_contra hjk
    exact hne (w.sampleAt_setSample_other a fun e => hjk (congrArg Fin.val e))
  | step => exact absurd (w.sampleAt_congr w.tick_samples k) hne
  | _ => exact absurd rfl hne

theorem WaveWrite.index_changed (hne : v.index ≠ w.index) :
    i = .wStep ∧ v.index.toNat = (w.index.toNat + 1) % 32 := by
  cases h with
  | step => exact ⟨rfl, w.tick_index_changed hne⟩
  | _ => exact absurd rfl hne

end WaveTable

/-! ### The obligations -/

/-- Settles O45: a column of the table of R32 for each field. -/
theorem waveFieldsAreWrittenAsTabulated : Obligations.WaveFieldsAreWrittenAsTabulated := by
  intro i s t h
  have hw : WaveWrite s.wave i t.wave := exec_waveWrite h
  refine ⟨fun hne => ?_, hw.enabled_changed, hw.remaining_changed, hw.level_changed, hw.divider_changed,
    hw.counter_changed, hw.mode_changed, hw.sampleAt_changed, hw.index_changed⟩
  exact (hw.running_changed hne).imp_left fun ⟨hi, _, _, hv⟩ => ⟨hi, hv⟩

/-- Settles O58: the `running` column of the table of R32, and the tick and the output of a stopped channel. -/
theorem runningIsSetByStartAndClearedByExhaustion :
    Obligations.RunningIsSetByStartAndClearedByExhaustion := by
  refine ⟨fun i s t h => ?_, fun s hlive hstop => ⟨?_, ?_⟩⟩
  · have hrun := (exec_waveWrite h).running_changed
    refine ⟨fun hs ht => ?_, fun hs ht => ?_⟩
    · obtain ⟨-, -, -, hf⟩ | ⟨hi, -⟩ := hrun (by simp [hs, ht])
      · simp [ht] at hf
      · exact hi
    · obtain ⟨hi, hm, h0, -⟩ | ⟨-, hf⟩ := hrun (by simp [hs, ht])
      · exact ⟨hi, hm, h0⟩
      · simp [ht] at hf
  · rw [exec_live _ hlive, effect, s.wave.tick_stopped hstop]
    rfl
  · rw [exec_live _ hlive, effect, s.wave.output_stopped hstop]
    rfl

end Sys2Proof.Machine

/-! SUPPORT and SETTLEMENT. The address decode (spec/40_bus_dispatcher.md R96), an equation per range, and the
register bank seen from its two ports (spec/20_memory.md R70): a stored cell is read back, and the bus address
0xFF00 + off names the cell off. -/

namespace Sys2Proof

/-! ### The address decode, range by range -/

section Decode

variable {a : Addr}

theorem decodeAddr_rom (h : a.toNat < 0x8000) : decodeAddr a = .rom a.toNat := if_pos h

theorem decodeAddr_ram (h : 0x8000 ≤ a.toNat) (h' : a.toNat < 0xE000) : decodeAddr a = .ram (ramOffset a) := by
  rw [decodeAddr, if_neg (by omega), if_pos h']

theorem decodeAddr_unmapped (h : 0xE000 ≤ a.toNat) (h' : a.toNat < 0xFF00) : decodeAddr a = .unmapped := by
  rw [decodeAddr, if_neg (by omega), if_neg (by omega), if_pos h']

theorem decodeAddr_io (h : 0xFF00 ≤ a.toNat) : decodeAddr a = .io (ioOffset a) := by
  rw [decodeAddr, if_neg (by omega), if_neg (by omega), if_neg (by omega)]

/-- In the read/write store the offset is below the store's size. -/
theorem ramOffset_le (h : a.toNat < 0xE000) : ramOffset a ≤ 0x5FFF := by
  unfold ramOffset; omega

/-- In the I/O window the offset fits a byte: nothing is truncated. -/
theorem ioOffset_toNat (h : 0xFF00 ≤ a.toNat) : (ioOffset a).toNat = a.toNat - 0xFF00 := by
  have := a.isLt
  rw [ioOffset, BitVec.toNat_ofNat]; omega

theorem rdForm_io (h : 0xFF00 ≤ a.toNat) (hne : ioOffset a ≠ 0x44#8) : rdForm a = .rdIo a := by
  simp only [rdForm, decodeAddr_io h, if_neg hne]

theorem wrForm_io (v : Byte) (h : 0xFF00 ≤ a.toNat) (hne : ioOffset a ≠ 0x44#8) : wrForm a v = .wrIo a v := by
  simp only [wrForm, decodeAddr_io h, if_neg hne]

end Decode

/-! ### The bus address of a cell of the bank -/

section BankAddress

variable (off : Byte)

theorem bankAddr_toNat : (0xFF00#16 + off.setWidth 16).toNat = 0xFF00 + off.toNat := by
  have := off.isLt
  rw [BitVec.toNat_add, BitVec.toNat_setWidth, BitVec.toNat_ofNat]; omega

theorem bankAddr_inWindow : 0xFF00 ≤ (0xFF00#16 + off.setWidth 16).toNat := by
  rw [bankAddr_toNat]; omega

theorem ioOffset_bankAddr : ioOffset (0xFF00#16 + off.setWidth 16) = off := by
  refine BitVec.eq_of_toNat_eq ?_
  rw [ioOffset_toNat (bankAddr_inWindow off), bankAddr_toNat, Nat.add_sub_cancel_left]

end BankAddress

end Sys2Proof

namespace Sys2Proof.Machine

/-! ### The bank's cells and the bus accesses to them -/

/-- A cell of the bank reads as the byte last stored in it. -/
@[simp] theorem State.bankCell_setBankCell_self (s : State) (off v : Byte) :
    (s.setBankCell off v).bankCell off = v := Memory.read_write_self s.bank off.toNat v

@[simp] theorem State.answer_bankCell (s : State) (o : OpOutcome) (off : Byte) :
    (s.answer o).bankCell off = s.bankCell off := rfl

section BankAccess

variable {s : State} {off : Byte}

/-- `RD 0xFF00 + off`: the stored cell, with the diagnostic of a plain I/O read (R101). -/
theorem memRead_bankAddr (hlive : s.fatal = none) (hne : off ≠ 0x44#8) :
    memRead (0xFF00#16 + off.setWidth 16) s =
      doneDiag (.byte (s.bankCell off)) (.ioReadUnhandled off) s := by
  have hoff := ioOffset_bankAddr off
  rw [memRead, rdForm_io (bankAddr_inWindow off) (by rwa [hoff]), exec_live _ hlive, effect, hoff]

/-- `WR 0xFF00 + off, v`: the cell is stored, with the diagnostic of a plain I/O write (R107). -/
theorem memWrite_bankAddr (v : Byte) (hlive : s.fatal = none) (hne : off ≠ 0x44#8) :
    memWrite (0xFF00#16 + off.setWidth 16) v s =
      doneDiag .none (.ioWriteUnhandled off v) (s.setBankCell off v) := by
  have hoff := ioOffset_bankAddr off
  rw [memWrite, wrForm_io v (bankAddr_inWindow off) (by rwa [hoff]), exec_live _ hlive, effect, hoff]

theorem exec_bankGet_live (off : Byte) (hlive : s.fatal = none) :
    exec (.bankGet off) s = done (.byte (s.bankCell off)) s := exec_live _ hlive

theorem exec_bankSet_live (off v : Byte) (hlive : s.fatal = none) :
    exec (.bankSet off v) s = done .none (s.setBankCell off v) := exec_live _ hlive

end BankAccess

/-! ### The obligations -/

/-- Settles O6: the equation of the decode for each range, and the bounds of the offsets. -/
theorem addressDecodeFirstMatchWins : Obligations.AddressDecodeFirstMatchWins := fun _ =>
  ⟨decodeAddr_rom, fun h h' => ⟨decodeAddr_ram h h', rfl, ramOffset_le h'⟩, decodeAddr_unmapped,
    fun h => ⟨decodeAddr_io h, ioOffset_toNat h⟩⟩

/-- Settles O50: a store from either port is one and the same `setBankCell`, which the other port's read of the
cell answers. -/
theorem bankPortAndBusSeeTheSameCells : Obligations.BankPortAndBusSeeTheSameCells := by
  intro s off v hlive hne
  refine ⟨⟨_, exec_bankSet_live off v hlive, ?_⟩, ⟨_, memWrite_bankAddr v hlive hne, ?_⟩⟩
  · rw [memRead_bankAddr (by simpa using hlive) hne, State.answer_bankCell, State.bankCell_setBankCell_self,
      doneDiag]
  · rw [exec_bankGet_live off (by simpa using hlive), State.answer_bankCell, State.bankCell_setBankCell_self,
      done]

end Sys2Proof.Machine

/-! SUPPORT and SETTLEMENT. The bus dispatcher (spec/40_bus_dispatcher.md R97 to R110): the form of `RD` and `WR` for
each target and each range, the words they are read from, what every operation leaves unchanged, and from these the
two dispatch rules, the rules of the single forms, `BUS.RESET` and `BUS.STEP`. -/

namespace Sys2Proof

/-! ### The forms of an access, target by target -/

section Targets

variable {a : Addr} (v : Byte)

theorem rdForm_of_rom {o : Nat} (h : decodeAddr a = .rom o) : rdForm a = .rdRom a := by rw [rdForm, h]

theorem rdForm_of_ram {o : Nat} (h : decodeAddr a = .ram o) : rdForm a = .rdRam a := by rw [rdForm, h]

theorem rdForm_of_unmapped (h : decodeAddr a = .unmapped) : rdForm a = .rdUnmapped a := by rw [rdForm, h]

theorem rdForm_of_line (h : decodeAddr a = .io 0x44#8) : rdForm a = .rdLy := by
  simp only [rdForm, h, if_true]

theorem rdForm_of_io {o : Byte} (h : decodeAddr a = .io o) (hne : o ≠ 0x44#8) : rdForm a = .rdIo a := by
  simp only [rdForm, h, if_neg hne]

theorem wrForm_of_rom {o : Nat} (h : decodeAddr a = .rom o) : wrForm a v = .wrRom a v := by rw [wrForm, h]

theorem wrForm_of_ram {o : Nat} (h : decodeAddr a = .ram o) : wrForm a v = .wrRam a v := by rw [wrForm, h]

theorem wrForm_of_unmapped (h : decodeAddr a = .unmapped) : wrForm a v = .wrUnmapped a v := by rw [wrForm, h]

theorem wrForm_of_line (h : decodeAddr a = .io 0x44#8) : wrForm a v = .wrLy v := by
  simp only [wrForm, h, if_true]

theorem wrForm_of_io {o : Byte} (h : decodeAddr a = .io o) (hne : o ≠ 0x44#8) : wrForm a v = .wrIo a v := by
  simp only [wrForm, h, if_neg hne]

end Targets

/-! ### The forms of an access, range by range -/

section Ranges

variable {a : Addr} (v : Byte)

/-- Only the address 0xFF44 has offset 0x44 in the window. -/
theorem InIo.ioOffset_ne (h : InIo a) : ioOffset a ≠ 0x44#8 := by
  obtain ⟨hw, hne⟩ := h
  intro e
  have hoff : a.toNat - 0xFF00 = 0x44 := by rw [← ioOffset_toNat hw, e]; rfl
  refine hne (BitVec.eq_of_toNat_eq ?_)
  show a.toNat = 0xFF44
  omega

theorem rdForm_rom (h : InRom a) : rdForm a = .rdRom a := rdForm_of_rom (decodeAddr_rom h)

theorem rdForm_ram (h : InRam a) : rdForm a = .rdRam a := rdForm_of_ram (decodeAddr_ram h.1 h.2)

theorem rdForm_unmapped (h : InUnmapped a) : rdForm a = .rdUnmapped a :=
  rdForm_of_unmapped (decodeAddr_unmapped h.1 h.2)

theorem rdForm_line : rdForm 0xFF44#16 = .rdLy := rfl

theorem rdForm_inIo (h : InIo a) : rdForm a = .rdIo a := rdForm_io h.1 h.ioOffset_ne

theorem wrForm_rom (h : InRom a) : wrForm a v = .wrRom a v := wrForm_of_rom v (decodeAddr_rom h)

theorem wrForm_ram (h : InRam a) : wrForm a v = .wrRam a v := wrForm_of_ram v (decodeAddr_ram h.1 h.2)

theorem wrForm_unmapped (h : InUnmapped a) : wrForm a v = .wrUnmapped a v :=
  wrForm_of_unmapped v (decodeAddr_unmapped h.1 h.2)

theorem wrForm_line : wrForm 0xFF44#16 v = .wrLy v := rfl

theorem wrForm_inIo (h : InIo a) : wrForm a v = .wrIo a v := wrForm_io v h.1 h.ioOffset_ne

/-- The five ranges are all the addresses (R49, R50). -/
theorem addr_cases (a : Addr) : InRom a ∨ InRam a ∨ InUnmapped a ∨ a = 0xFF44#16 ∨ InIo a := by
  by_cases hline : a = 0xFF44#16
  · exact .inr (.inr (.inr (.inl hline)))
  · simp only [InRom, InRam, InUnmapped, InIo, hline, ne_eq, not_false_eq_true, and_true]
    omega

/-- A store to an address is an operation of the bus port, and neither `BUS.STEP` nor `BUS.RESET`. -/
theorem wrForm_store (a : Addr) (v : Byte) :
    (wrForm a v).port = .bus ∧ wrForm a v ≠ .busStep ∧ wrForm a v ≠ .busReset := by
  obtain h | h | h | rfl | h := addr_cases a
  · rw [wrForm_rom v h]; exact ⟨rfl, nofun, nofun⟩
  · rw [wrForm_ram v h]; exact ⟨rfl, nofun, nofun⟩
  · rw [wrForm_unmapped v h]; exact ⟨rfl, nofun, nofun⟩
  · rw [wrForm_line]; exact ⟨rfl, nofun, nofun⟩
  · rw [wrForm_inIo v h]; exact ⟨rfl, nofun, nofun⟩

end Ranges

/-! ### The words of the bus accesses -/

/-- `{00, addr, 0}` is read as the form of `RD addr` (R73, R75). -/
theorem decode_rdWord (a : Addr) : decodeCommand (.bus (0b00#2 ++ a ++ 0#8)) = .legal (rdForm a) := by
  simp only [decodeCommand, decodeBus, busWord_bop, busWord_addr, busWord_data, Decoded.guard, decide_true,
    if_true]

/-- `{01, addr, value}` is read as the form of `WR addr, value` (R73, R75). -/
theorem decode_wrWord (a : Addr) (v : Byte) :
    decodeCommand (.bus (0b01#2 ++ a ++ v)) = .legal (wrForm a v) := by
  have hbop : (0b01#2 : BitVec 2) ≠ 0b00#2 := by decide
  simp only [decodeCommand, decodeBus, busWord_bop, busWord_addr, busWord_data, if_neg hbop, if_true]

end Sys2Proof

namespace Sys2Proof.Machine

/-! ### What every operation does and leaves unchanged -/

section Operations

variable {i : Instr} {s t : State}

/-- With the latch set every operation answers the latched condition and changes nothing. -/
theorem exec_yieldsToLatch (i : Instr) : yieldsToLatch i := fun s f h => by
  rw [exec_eq_unlessFatal, unlessFatal_latched _ h]

/-- An operation that meets a fatal condition answers it and changes nothing but the latch (R179). -/
theorem exec_raises {f : Fatal} (hlive : s.fatal = none) (hf : effect i s = raiseFatal f s) :
    ∃ t, exec i s = .next t ∧ s.answered t (.fatal f) ∧ s.sameButLatch t :=
  ⟨_, (exec_live i hlive).trans hf, ⟨rfl, rfl⟩, ⟨rfl, rfl, rfl, rfl⟩, rfl⟩

/-- The effect of an operation is a next state, which keeps the image and, but for `BUS.STEP` and `BUS.RESET`, the
video subsystem. -/
theorem effect_frame (i : Instr) (s : State) :
    ∃ t, effect i s = .next t ∧ t.rom = s.rom ∧ (i ≠ .busStep → i ≠ .busReset → t.video = s.video) := by
  cases i with
  | busStep => exact ⟨_, rfl, rfl, fun hne => absurd rfl hne⟩
  | busReset => exact ⟨_, rfl, rfl, fun _ hne => absurd rfl hne⟩
  | wRamrd _ | wRamwr _ _ | wSetdiv _ =>
    simp only [effect]
    split <;> exact ⟨_, rfl, rfl, fun _ _ => rfl⟩
  | _ => exact ⟨_, rfl, rfl, fun _ _ => rfl⟩

/-- What `effect_frame` says, of an operation in any state. -/
theorem exec_frame (i : Instr) (s : State) :
    ∃ t, exec i s = .next t ∧ t.rom = s.rom ∧ (i ≠ .busStep → i ≠ .busReset → t.video = s.video) := by
  cases hf : s.fatal with
  | none => rw [exec_live i hf]; exact effect_frame i s
  | some f => exact ⟨_, exec_yieldsToLatch i s f hf, rfl, fun _ _ => rfl⟩

/-- No operation writes the image (R15). -/
theorem exec_rom (h : exec i s = .next t) : t.rom = s.rom := by
  obtain ⟨u, hu, hrom, -⟩ := exec_frame i s
  cases h.symm.trans hu
  exact hrom

/-- Only `BUS.STEP` and `BUS.RESET` write the video subsystem (R20). -/
theorem exec_video (h : exec i s = .next t) (hstep : i ≠ .busStep) (hreset : i ≠ .busReset) :
    t.video = s.video := by
  obtain ⟨u, hu, -, hvideo⟩ := exec_frame i s
  cases h.symm.trans hu
  exact hvideo hstep hreset

/-- The rows of R32 are of operations of the wave port. -/
theorem WaveWrite.kept_of_bus {w v : Wave} (h : WaveWrite w i v) (hport : i.port = .bus) : v = w := by
  cases h with
  | kept => rfl
  | _ => cases hport

/-- No operation of the bus port writes the Wave Channel (R7, R32). -/
theorem exec_wave_of_bus (h : exec i s = .next t) (hport : i.port = .bus) : t.wave = s.wave :=
  (exec_waveWrite h).kept_of_bus hport

/-- The image decides what its bytes are. -/
theorem State.romByte_congr (h : t.rom = s.rom) (o : Nat) : t.romByte o = s.romByte o := by
  rw [State.romByte, State.romByte, h]

end Operations

/-! ### The cells of the two stores -/

section Cells

variable (s : State)

@[simp] theorem State.answer_ramCell (r : OpOutcome) (o : Nat) : (s.answer r).ramCell o = s.ramCell o := rfl

@[simp] theorem State.ramCell_setRamCell_self (o : Nat) (v : Byte) : (s.setRamCell o v).ramCell o = v :=
  Memory.read_write_self s.ram o v

theorem State.ramCell_setRamCell_other {o k : Nat} (v : Byte) (h : k ≠ o) :
    (s.setRamCell o v).ramCell k = s.ramCell k := Memory.read_write_other s.ram v h

theorem State.bankCell_setBankCell_other {off k : Byte} (v : Byte) (h : k ≠ off) :
    (s.setBankCell off v).bankCell k = s.bankCell k :=
  Memory.read_write_other s.bank v fun e => h (BitVec.eq_of_toNat_eq e)

end Cells

/-! ### The bus accesses, range by range -/

section Accesses

variable {s : State} {a : Addr} (v : Byte) (hlive : s.fatal = none)
include hlive

theorem memRead_rom (h : InRom a) : memRead a s = done (.byte (s.romByte a.toNat)) s := by
  rw [memRead, rdForm_rom h, exec_live _ hlive, effect]

theorem memRead_ram (h : InRam a) : memRead a s = done (.byte (s.ramCell (ramOffset a))) s := by
  rw [memRead, rdForm_ram h, exec_live _ hlive, effect]

theorem memRead_unmapped (h : InUnmapped a) : memRead a s = raiseFatal (.unmappedRead a) s := by
  rw [memRead, rdForm_unmapped h, exec_live _ hlive, effect]

theorem memRead_line : memRead 0xFF44#16 s = done (.byte s.video.vline) s := by
  rw [memRead, rdForm_line, exec_live _ hlive, effect]

theorem memRead_io (h : InIo a) :
    memRead a s = doneDiag (.byte (s.bankCell (ioOffset a))) (.ioReadUnhandled (ioOffset a)) s := by
  rw [memRead, rdForm_inIo h, exec_live _ hlive, effect]

theorem memWrite_rom (h : InRom a) : memWrite a v s = doneDiag .none (.romWrite a v) s := by
  rw [memWrite, wrForm_rom v h, exec_live _ hlive, effect]

theorem memWrite_ram (h : InRam a) : memWrite a v s = done .none (s.setRamCell (ramOffset a) v) := by
  rw [memWrite, wrForm_ram v h, exec_live _ hlive, effect]

theorem memWrite_unmapped (h : InUnmapped a) : memWrite a v s = raiseFatal (.unmappedWrite a v) s := by
  rw [memWrite, wrForm_unmapped v h, exec_live _ hlive, effect]

theorem memWrite_line : memWrite 0xFF44#16 v s = raiseFatal (.scanlineWrite v) s := by
  rw [memWrite, wrForm_line, exec_live _ hlive, effect]

theorem memWrite_io (h : InIo a) :
    memWrite a v s = doneDiag .none (.ioWriteUnhandled (ioOffset a) v) (s.setBankCell (ioOffset a) v) := by
  rw [memWrite, wrForm_inIo v h, exec_live _ hlive, effect]

/-- Everything `RD` can do: the unmapped range is fatal, the I/O window but 0xFF44 answers with a diagnostic, every
other address answers a byte silently. -/
theorem memRead_cases (a : Addr) :
    (InUnmapped a ∧ memRead a s = raiseFatal (.unmappedRead a) s) ∨
      (InIo a ∧ memRead a s = doneDiag (.byte (s.bankCell (ioOffset a))) (.ioReadUnhandled (ioOffset a)) s) ∨
      (¬ InUnmapped a ∧ ¬ InIo a ∧ ∃ b, memRead a s = done (.byte b) s) := by
  obtain h | h | h | rfl | h := addr_cases a
  · exact .inr (.inr ⟨by omega, by omega, _, memRead_rom hlive h⟩)
  · exact .inr (.inr ⟨by omega, by omega, _, memRead_ram hlive h⟩)
  · exact .inl ⟨h, memRead_unmapped hlive h⟩
  · exact .inr (.inr ⟨by decide, by decide, _, memRead_line hlive⟩)
  · exact .inr (.inl ⟨h, memRead_io hlive h⟩)

end Accesses

/-! ### RD and WR: the dispatch -/

/-- Settles O11: the forms target by target, and the three ways of `memRead_cases`. -/
theorem rdIsTheFormOfTheDecodedTarget : Obligations.RdIsTheFormOfTheDecodedTarget := by
  intro a
  refine ⟨decode_rdWord a, exec_yieldsToLatch _, fun s o h => ?_, fun s o h => ?_, fun s h => ?_, fun s h => ?_,
    fun s o h hne => ?_, rfl, rfl, fun s hlive => ?_⟩
  · rw [memRead, rdForm_of_rom h]
  · rw [memRead, rdForm_of_ram h]
  · rw [memRead, rdForm_of_unmapped h]
  · rw [memRead, rdForm_of_line h]
  · rw [memRead, rdForm_of_io h hne]
  · obtain ⟨hu, h⟩ | ⟨hio, h⟩ | ⟨hu, hio, b, h⟩ := memRead_cases hlive a
    · exact ⟨_, h, ⟨⟨rfl, rfl, rfl, rfl⟩, rfl⟩, fun _ => ⟨⟨rfl, rfl⟩, rfl⟩, fun hio => by omega,
        fun hnot => absurd hu hnot⟩
    · exact ⟨_, h, ⟨⟨rfl, rfl, rfl, rfl⟩, rfl⟩, fun hu => by omega, fun _ => ⟨hlive, _, rfl, rfl⟩,
        fun _ hnot => absurd hio hnot⟩
    · exact ⟨_, h, ⟨⟨rfl, rfl, rfl, rfl⟩, rfl⟩, fun h => absurd h hu, fun h => absurd h hio,
        fun _ _ => ⟨hlive, b, rfl, rfl⟩⟩

/-- Settles O17: the forms target by target, the frame of every store, and its outcome range by range. -/
theorem wrIsTheFormOfTheDecodedTarget : Obligations.WrIsTheFormOfTheDecodedTarget := by
  intro a v
  refine ⟨decode_wrWord a v, exec_yieldsToLatch _, fun s o h => ?_, fun s o h => ?_, fun s h => ?_, fun s h => ?_,
    fun s o h hne => ?_, rfl, rfl, rfl, rfl, fun s hlive => ?_⟩
  · rw [memWrite, wrForm_of_rom v h]
  · rw [memWrite, wrForm_of_ram v h]
  · rw [memWrite, wrForm_of_unmapped v h]
  · rw [memWrite, wrForm_of_line v h]
  · rw [memWrite, wrForm_of_io v h hne]
  · obtain ⟨hport, hstep, hreset⟩ := wrForm_store a v
    obtain ⟨t, ht, hrom, hvideo⟩ : ∃ t, memWrite a v s = .next t ∧ _ := exec_frame (wrForm a v) s
    refine ⟨t, ht, hvideo hstep hreset, hrom, exec_wave_of_bus ht hport, fun h => ?_, fun h => ?_,
      fun h => ?_, fun h => ?_, fun h => ?_⟩
    · rw [memWrite_rom v hlive h] at ht
      cases ht
      exact ⟨⟨rfl, rfl⟩, ⟨⟨rfl, rfl, rfl, rfl⟩, rfl⟩, rfl⟩
    · rw [memWrite_ram v hlive h] at ht
      cases ht
      exact ⟨⟨rfl, rfl⟩, hlive, rfl, fun o => s.ramCell_setRamCell_other v⟩
    · rw [memWrite_unmapped v hlive h] at ht
      cases ht
      exact ⟨⟨rfl, rfl⟩, rfl, ⟨rfl, rfl, rfl, rfl⟩, rfl⟩
    · subst h
      rw [memWrite_line v hlive] at ht
      cases ht
      exact ⟨⟨rfl, rfl⟩, rfl, ⟨rfl, rfl, rfl, rfl⟩, rfl⟩
    · rw [memWrite_io v hlive h] at ht
      cases ht
      exact ⟨⟨rfl, rfl⟩, hlive, rfl, fun off => s.bankCell_setBankCell_other v⟩

/-! ### RD: the single forms -/

/-- Settles O16: the line is in the video subsystem, which neither a store to the bank nor any operation but
`BUS.STEP` and `BUS.RESET` writes. -/
theorem rdLyAnswersTheCurrentLine : Obligations.RdLyAnswersTheCurrentLine := by
  refine ⟨rfl, fun s hlive => ⟨exec_live _ hlive, fun v => ?_, fun i t hstep hreset h ht => ?_⟩⟩
  · have hlive' : (s.setBankCell 0x44#8 v).fatal = none := hlive
    rw [exec_live _ hlive', effect, State.setBankCell_video, done]
  · rw [exec_live _ ht, effect, exec_video h hstep hreset, done]

/-- Settles O12: no operation writes the image, and a bus write is an operation. -/
theorem rdRomAnswersTheImageByte : Obligations.RdRomAnswersTheImageByte := fun _ a hlive ha =>
  ⟨rdForm_rom ha ▸ decode_rdWord a, exec_live _ hlive, fun _ _ _ hu => State.romByte_congr (exec_rom hu) _⟩

/-- Settles O13: power-on and `BUS.RESET` list no cell, and an unlisted cell reads 0x00. -/
theorem rdRamAnswersTheCell : Obligations.RdRamAnswersTheCell := by
  intro s a hlive hlo hhi
  refine ⟨rdForm_ram ⟨hlo, hhi⟩ ▸ decode_rdWord a, rfl, exec_live _ hlive, rfl, fun t h => ?_⟩
  rw [exec_live _ hlive] at h
  cases h
  rfl

/-- Settles O14: the range has the fatal form, which takes `exec_raises`. -/
theorem rdUnmappedIsFatal : Obligations.RdUnmappedIsFatal := fun _ a hlive hlo hhi =>
  ⟨rdForm_unmapped ⟨hlo, by omega⟩ ▸ decode_rdWord a, rfl, exec_raises hlive rfl⟩

/-- Settles O15: a store from either port is one and the same `setBankCell`. -/
theorem rdIoAnswersTheCellWithADiagnostic : Obligations.RdIoAnswersTheCellWithADiagnostic := by
  intro s a hlive hw hne
  refine ⟨rdForm_inIo ⟨hw, hne⟩ ▸ decode_rdWord a, ioOffset_toNat hw, rfl, exec_live _ hlive, rfl,
    fun v t h => ?_⟩
  have ht : t.fatal = none ∧ t.bankCell (ioOffset a) = v := by
    obtain h | h := h
    all_goals
      rw [exec_live _ hlive] at h
      cases h
      exact ⟨hlive, s.bankCell_setBankCell_self _ v⟩
  obtain ⟨hlive', hcell⟩ := ht
  rw [exec_live _ hlive', effect, hcell, doneDiag]

/-! ### WR: the single forms -/

/-- Settles O18: nothing but the answer is written, so the read is that of `memRead_rom`. -/
theorem wrRomDiscardsAndReports : Obligations.WrRomDiscardsAndReports := fun s a v hlive ha =>
  ⟨wrForm_rom v ha ▸ decode_wrWord a v, rfl, _, exec_live _ hlive, ⟨rfl, rfl⟩,
    ⟨⟨⟨rfl, rfl, rfl, rfl⟩, rfl⟩, rfl⟩, memRead_rom (s := s.answer _) hlive ha⟩

/-- Settles O19: the store is a write of one RAM cell, which the read then answers. -/
theorem wrRamStoresTheByte : Obligations.WrRamStoresTheByte := by
  intro s a v hlive hlo hhi
  have ha : InRam a := ⟨hlo, hhi⟩
  have hcell := s.ramCell_setRamCell_self (ramOffset a) v
  refine ⟨wrForm_ram v ha ▸ decode_wrWord a v, rfl, _, exec_live _ hlive, ⟨rfl, rfl⟩, hcell,
    fun o => s.ramCell_setRamCell_other v, rfl, rfl, rfl, rfl, hlive, ?_⟩
  rw [memRead_ram (by simpa using hlive) ha, State.answer_ramCell, hcell, done]

/-- Settles O20: as O14, by `exec_raises`. -/
theorem wrUnmappedIsFatal : Obligations.WrUnmappedIsFatal := fun _ a v hlive hlo hhi =>
  ⟨wrForm_unmapped v ⟨hlo, by omega⟩ ▸ decode_wrWord a v, rfl, exec_raises hlive rfl⟩

/-- Settles O21: the store is a write of one bank cell. -/
theorem wrIoStoresTheByteWithADiagnostic : Obligations.WrIoStoresTheByteWithADiagnostic := fun s a v hlive hw hne =>
  ⟨wrForm_inIo v ⟨hw, hne⟩ ▸ decode_wrWord a v, ioOffset_toNat hw, rfl, _, exec_live _ hlive, ⟨rfl, rfl⟩,
    s.bankCell_setBankCell_self _ v, fun _ => s.bankCell_setBankCell_other v, rfl, rfl, rfl, rfl, hlive⟩

/-- Settles O22: as O14, by `exec_raises`. -/
theorem wrLyIsFatal : Obligations.WrLyIsFatal := fun _ v hlive =>
  ⟨decode_wrWord 0xFF44#16 v, rfl, exec_raises hlive rfl⟩

/-! ### BUS.RESET and BUS.STEP -/

/-- `BUS.RESET` with the latch clear (R109). -/
theorem exec_busReset_live {s : State} (hlive : s.fatal = none) :
    exec .busReset s = done .none (s.ramReset.bankReset.setVideo Config.vreset) := exec_live _ hlive

/-- Settles O23: `exec_busReset_live` in the state itself, in the state after it and at power-on. -/
theorem busResetRestoresPowerOnZero : Obligations.BusResetRestoresPowerOnZero := by
  refine ⟨rfl, exec_yieldsToLatch _, fun s hlive => ?_, _, exec_busReset_live rfl,
    ⟨⟨rfl, rfl, rfl, rfl⟩, rfl⟩, rfl⟩
  refine ⟨_, exec_busReset_live hlive, ⟨rfl, rfl⟩, fun _ => rfl, fun _ => rfl, rfl, rfl, rfl, hlive,
    ⟨_, exec_busReset_live hlive, ⟨⟨rfl, rfl, rfl, rfl⟩, rfl⟩, rfl⟩, ?_⟩
  rw [memRead_line (by simpa using hlive), State.answer_video, State.setVideo_video, done]

/-- Settles O24: the effect is the one update `setVideo`. -/
theorem busStepAdvancesTheVideoSubsystem : Obligations.BusStepAdvancesTheVideoSubsystem :=
  ⟨rfl, exec_yieldsToLatch _, fun _ hlive =>
    ⟨_, exec_live _ hlive, ⟨rfl, rfl⟩, rfl, rfl, rfl, rfl, rfl, hlive⟩⟩

end Sys2Proof.Machine

/-! SUPPORT and SETTLEMENT. The BANK port (spec/41_io_register_bank.md R128, R131): the word of `BANK.SET`, and the
order of two stores to the bank. -/

namespace Sys2Proof

/-- `{1, off, value}` is read as `BANK.SET off, value` (R74). -/
theorem decode_bankSetWord (off v : Byte) :
    decodeCommand (.bank (1#1 ++ off ++ v)) = .legal (.bankSet off v) := by
  have hkop : (1#1 : BitVec 1) ≠ 0#1 := by decide
  simp only [decodeCommand, decodeBank, bankWord_kop, bankWord_off, bankWord_data, if_neg hkop]

end Sys2Proof

namespace Sys2Proof.Machine

/-! ### The order of two stores -/

/-- Stores to different cells, in either order, leave every cell the same. -/
theorem Memory.read_write_comm (m : Memory) {a b : Nat} (v w : Byte) (hab : a ≠ b) (k : Nat) :
    ((m.write a v).write b w).read k = ((m.write b w).write a v).read k := by
  by_cases hb : k = b
  · subst hb
    rw [Memory.read_write_self, Memory.read_write_other _ v hab.symm, Memory.read_write_self]
  · rw [Memory.read_write_other _ w hb]
    by_cases ha : k = a
    · subst ha
      rw [Memory.read_write_self, Memory.read_write_self]
    · rw [Memory.read_write_other _ v ha, Memory.read_write_other _ v ha, Memory.read_write_other _ w hb]

/-- In a canonical store the order of stores to different cells leaves no trace: canonical stores that read alike
are the same data. -/
theorem Memory.write_comm {size : Nat} {m : Memory} (h : m.wf size) {a b : Nat} (ha : a < size) (hb : b < size)
    (hab : a ≠ b) (v w : Byte) : (m.write a v).write b w = (m.write b w).write a v :=
  Memory.ext_of_wf (Memory.wf_write (Memory.wf_write h ha v) hb w)
    (Memory.wf_write (Memory.wf_write h hb w) ha v) (m.read_write_comm v w hab)

section BankStores

variable (s : State)

/-- The answers do not matter to a store to the bank. -/
@[simp] theorem State.answer_setBankCell (o : OpOutcome) (off v : Byte) :
    (s.answer o).setBankCell off v = (s.setBankCell off v).answer o := rfl

theorem State.bankCell_setBankCell_comm {i j : Byte} (v w : Byte) (hij : i ≠ j) (k : Byte) :
    ((s.setBankCell i v).setBankCell j w).bankCell k = ((s.setBankCell j w).setBankCell i v).bankCell k :=
  s.bank.read_write_comm v w (fun e => hij (BitVec.eq_of_toNat_eq e)) k.toNat

theorem State.setBankCell_comm {i j : Byte} (v w : Byte) (hij : i ≠ j) (hwf : s.bank.wf 0x100) :
    (s.setBankCell i v).setBankCell j w = (s.setBankCell j w).setBankCell i v :=
  congrArg s.setBank (Memory.write_comm hwf i.isLt j.isLt (fun e => hij (BitVec.eq_of_toNat_eq e)) v w)

end BankStores

/-! ### The obligations -/

/-- Settles O51: an operation in the state another has left is live again, and the stores commute by
`bankCell_setBankCell_comm` and `setBankCell_comm`. -/
theorem bankCellsAreIndependent : Obligations.BankCellsAreIndependent := by
  intro s i j v w hlive hij
  have live_after (off b : Byte) : ((s.setBankCell off b).answer (.ok .none)).fatal = none := hlive
  refine ⟨_, _, _, _, _, exec_bankSet_live i v hlive, exec_bankSet_live j w (live_after i v),
    exec_bankSet_live j w hlive, exec_bankSet_live i v (live_after j w), exec_bankSet_live i w (live_after i v),
    fun k => ?_, fun hwf => ?_, ?_, ?_⟩
  · simpa using s.bankCell_setBankCell_comm v w hij k
  · simp only [State.answer_setBankCell, s.setBankCell_comm v w hij hwf]
  · rw [exec_bankGet_live j (live_after i v), State.answer_bankCell, s.bankCell_setBankCell_other v hij.symm, done]
  · exact State.bankCell_setBankCell_self _ i w

/-- Settles O26: the store is a write of one bank cell. -/
theorem bankSetStoresOneCell : Obligations.BankSetStoresOneCell := fun off v =>
  ⟨decode_bankSetWord off v, exec_yieldsToLatch _, fun s hlive =>
    ⟨_, exec_bankSet_live off v hlive, ⟨rfl, rfl⟩, s.bankCell_setBankCell_self off v,
      fun _ => s.bankCell_setBankCell_other v, rfl, rfl, rfl, rfl, hlive⟩⟩

end Sys2Proof.Machine

/-! SUPPORT and SETTLEMENT. The Wave Channel's operations (spec/42_wave_channel.md R137 to R150): the words of
`W.SETDIV` and `W.SETLEN`, the one shape of every operation that writes only the channel, the counting tick, the
output, and a Counter-mode run down to its exhaustion tick. -/

namespace Sys2Proof

/-! ### The words with an operand in `arg` -/

/-- `{0110, v}` is read as `W.SETDIV v` (R77). -/
theorem decode_wSetdivWord (v : BitVec 16) : decodeCommand (.wave (0x6#4 ++ v)) = .legal (.wSetdiv v) := by
  have hwop : BitVec.extractLsb' (n := 20) 16 4 (0x6#4 ++ v) = 0x6#4 := BitVec.extractLsb'_append_eq_left
  have harg : BitVec.extractLsb' (n := 20) 0 16 (0x6#4 ++ v) = v := BitVec.extractLsb'_append_eq_right
  simp only [decodeCommand, decodeWave, hwop, harg, BitVec.reduceEq, if_true, if_false]

/-- `{1000, 0, len}` is read as `W.SETLEN len` (R77). -/
theorem decode_wSetlenWord (len : Byte) :
    decodeCommand (.wave (0x8#4 ++ 0#8 ++ len)) = .legal (.wSetlen len) := by
  simp only [decodeCommand, decodeWave, waveWord_wop, waveWord_hi, waveWord_lo, Decoded.guard, BitVec.reduceEq,
    decide_true, if_true, if_false]

end Sys2Proof

namespace Sys2Proof.Machine

/-! ### Operations that write only the channel -/

section ChannelWriters

variable {i : Instr} {s t : State} {w : Wave}

/-- An operation whose effect is to write the channel answers silently and leaves the dispatcher's state and the
latch. -/
theorem exec_writesWave (hlive : s.fatal = none) (he : effect i s = done .none (s.setWave w)) :
    ∃ t, exec i s = .next t ∧ s.answered t (.ok .none) ∧ t.wave = w ∧ s.sameDispatcher t ∧ t.fatal = none :=
  ⟨_, (exec_live i hlive).trans he, ⟨rfl, rfl⟩, rfl, ⟨rfl, rfl, rfl, rfl⟩, hlive⟩

theorem exec_wStep_live (hlive : s.fatal = none) :
    ∃ t, exec .wStep s = .next t ∧ s.answered t (.ok .none) ∧ t.wave = s.wave.tick ∧ s.sameDispatcher t ∧
      t.fatal = none := exec_writesWave hlive rfl

/-- The first of `n + 1` operations, and the `n` that follow it. -/
theorem execN_succ (n : Nat) (h : exec i s = .next t) : execN (n + 1) i s = execN n i t := by
  rw [execN, h]

end ChannelWriters

section Channel

variable (w : Wave)

/-! ### The counting tick -/

/-- Clauses (c) and (d) on the phase at a countdown of 0: the next of 32. -/
theorem Wave.reload_countDown_index_zero (h : w.counter = 0#13) :
    w.reload.countDown.index.toNat = (w.index.toNat + 1) % 32 := by
  simp [w.reload_zero h, BitVec.toNat_add]

/-- Clauses (c) and (d) on the phase away from 0: kept. -/
theorem Wave.reload_countDown_index_nonzero (h : w.counter ≠ 0#13) : w.reload.countDown.index = w.index := by
  rw [w.reload_nonzero h, Wave.countDown_index]

/-- A tick past clauses (a) and (b) is (c) and (d), with the budget one tick less in `Counter` mode and kept in
`Continuous` mode. -/
theorem Wave.tick_counting (hr : w.running = true) (hb : w.mode = .counter → w.remaining ≠ 0#23) :
    ∃ n, (w.mode = .counter → n.toNat + 1 = w.remaining.toNat) ∧ (w.mode = .continuous → n = w.remaining) ∧
      w.tick = (w.setRemaining n).reload.countDown := by
  cases hm : w.mode with
  | continuous => exact ⟨w.remaining, nofun, fun _ => rfl, w.tick_continuous hr hm⟩
  | counter =>
    have hne : w.remaining.toNat ≠ 0 := fun e => hb hm (BitVec.eq_of_toNat_eq e)
    exact ⟨_, fun _ => toNat_sub_one_add_one hne, nofun, w.tick_counter hr hm (hb hm)⟩

/-! ### The output -/

/-- The gate open: the entry at the phase, attenuated. -/
theorem Wave.output_open (hr : w.running = true) (he : w.enabled = true) :
    w.output = attenuate (w.sampleAt w.index.toFin) w.level := by simp [Wave.output, Wave.gateOpen, hr, he]

/-- The gate closed, by either bit: 0. -/
theorem Wave.output_closed (h : ¬ (w.running = true ∧ w.enabled = true)) : w.output = 0#8 := by
  simp [Wave.output, Wave.gateOpen, h]

theorem attenuate_half_toNat (x : Byte) : (attenuate x .half).toNat = x.toNat / 2 := by
  have := x.isLt
  rw [attenuate, BitVec.toNat_ofNat]; omega

theorem attenuate_quarter_toNat (x : Byte) : (attenuate x .quarter).toNat = x.toNat / 4 := by
  have := x.isLt
  rw [attenuate, BitVec.toNat_ofNat]; omega

/-- No level amplifies. -/
theorem attenuate_toNat_le (x : Byte) (l : Level) : (attenuate x l).toNat ≤ x.toNat := by
  cases l with
  | mute => exact Nat.zero_le _
  | full => exact Nat.le_refl _
  | half => rw [attenuate_half_toNat]; exact Nat.div_le_self _ _
  | quarter => rw [attenuate_quarter_toNat]; exact Nat.div_le_self _ _

end Channel

/-! ### A Counter-mode run -/

/-- `s.CountingDown n`: the channel runs in `Counter` mode with a budget of `n`, and nothing is latched. -/
structure State.CountingDown (s : State) (n : Nat) : Prop where
  live : s.fatal = none
  running : s.wave.running = true
  mode : s.wave.mode = .counter
  budget : s.wave.remaining.toNat = n

section CounterRun

variable {s : State} {n : Nat}

/-- With budget left, `W.STEP` spends one tick of it and the run goes on. -/
theorem State.CountingDown.step (h : s.CountingDown (n + 1)) :
    ∃ t, exec .wStep s = .next t ∧ t.CountingDown n := by
  obtain ⟨t, ht, -, hw, -, hlive⟩ := exec_wStep_live h.live
  have hb : s.wave.remaining ≠ 0#23 := fun e => by simpa [e] using h.budget
  obtain ⟨r, hspent, -, htick⟩ := s.wave.tick_counting h.running fun _ => hb
  rw [htick] at hw
  have hrem : t.wave.remaining = r := by simp [hw]
  have hn := h.budget
  have hr := hspent h.mode
  exact ⟨t, ht, hlive, by simp [hw, h.running], by simp [hw, h.mode], by rw [hrem]; omega⟩

/-- `k` steps of `W.STEP` with a budget of at least `k` spend `k` ticks of it. -/
theorem State.CountingDown.steps {k : Nat} (h : s.CountingDown (n + k)) :
    ∃ u, execN k .wStep s = .next u ∧ u.CountingDown n := by
  induction k generalizing s with
  | zero => exact ⟨s, rfl, h⟩
  | succ k ih =>
    obtain ⟨t, ht, hcount⟩ := State.CountingDown.step h
    rw [execN_succ k ht]
    exact ih hcount

/-- With no budget left, `W.STEP` is the exhaustion tick (R139). -/
theorem State.CountingDown.exhausted (h : s.CountingDown 0) :
    s.wave.remaining = 0#23 ∧
      ∃ t, exec .wStep s = .next t ∧ t.wave = { s.wave with running := false } ∧ s.sameDispatcher t := by
  have h0 : s.wave.remaining = 0#23 := BitVec.eq_of_toNat_eq h.budget
  obtain ⟨t, ht, -, hw, hframe, -⟩ := exec_wStep_live h.live
  rw [s.wave.tick_exhausted h.running h.mode h0] at hw
  exact ⟨h0, t, ht, hw, hframe⟩

end CounterRun

/-! ### The obligations -/

/-- Settles O27: the frame of every tick, then the equation of the tick for each of the clauses (a), (b) and, by
`tick_counting`, (c) with (d). -/
theorem wStepClauses : Obligations.WStepClauses := by
  refine ⟨rfl, exec_yieldsToLatch _, fun s hlive => ?_⟩
  obtain ⟨t, ht, hans, hw, hframe, hf⟩ := exec_wStep_live hlive
  refine ⟨t, ht, hans, hframe, hf, ?_⟩
  rw [hw]
  refine ⟨s.wave.tick_enabled, s.wave.tick_level, s.wave.tick_divider, s.wave.tick_mode, s.wave.tick_samples,
    s.wave.tick_stopped, s.wave.tick_exhausted, fun hr hb => ?_⟩
  obtain ⟨n, hspent, hkept, htick⟩ := s.wave.tick_counting hr hb
  have hrem : (s.wave.setRemaining n).reload.countDown.remaining = n := by simp
  have hcount := (s.wave.setRemaining n).reload_countDown_counter
  rw [Wave.setRemaining_counter, Wave.setRemaining_divider] at hcount
  rw [htick, hrem]
  refine ⟨by simp [hr], fun hm => ?_, hkept, fun h0 => ⟨?_, ?_⟩, fun h0 => ⟨?_, ?_⟩⟩
  · have := hspent hm
    omega
  · rw [if_pos h0] at hcount
    omega
  · exact (s.wave.setRemaining n).reload_countDown_index_zero h0
  · rw [if_neg h0] at hcount
    omega
  · exact (s.wave.setRemaining n).reload_countDown_index_nonzero h0

/-- Settles O28: the output behind the gate, and the attenuator level by level. -/
theorem wSampleAnswersTheAttenuatedEntry : Obligations.WSampleAnswersTheAttenuatedEntry :=
  ⟨rfl, exec_yieldsToLatch _,
    fun s hlive => ⟨s.wave.output, exec_live _ hlive, s.wave.output_closed, s.wave.output_open⟩,
    fun x => ⟨rfl, rfl, attenuate_half_toNat x, attenuate_quarter_toNat x, attenuate_toNat_le x⟩⟩

/-- Settles O55: the run counts down to a budget of 0, where the next step is the exhaustion tick. -/
theorem exhaustionTick : Obligations.ExhaustionTick := by
  intro s hlive hr hm
  refine ⟨fun k hk => ?_, ?_⟩
  · have hs : s.CountingDown (s.wave.remaining.toNat - k + k) := ⟨hlive, hr, hm, by omega⟩
    obtain ⟨u, hu, hcount⟩ := hs.steps
    exact ⟨u, hu, hcount.running⟩
  · have hs : s.CountingDown (0 + s.wave.remaining.toNat) := ⟨hlive, hr, hm, by omega⟩
    obtain ⟨u, hu, hcount⟩ := hs.steps
    obtain ⟨h0, t, ht, hw, hframe⟩ := hcount.exhausted
    exact ⟨u, t, hu, ht, hcount.running, h0, hw, hframe⟩

/-- Settles O31: below 0x800 the divider is written, and at 0x800 or more the operation takes `exec_raises`. -/
theorem wSetdivWritesTheDivider : Obligations.WSetdivWritesTheDivider := by
  intro v
  refine ⟨decode_wSetdivWord v, exec_yieldsToLatch _, fun s hlive => ⟨fun hv => ?_, fun hv => ⟨rfl, ?_⟩⟩⟩
  · obtain ⟨t, ht, hans, hw, hframe, hf⟩ := exec_writesWave hlive (i := .wSetdiv v) (if_pos hv)
    exact ⟨t, ht, hans, hw, by rw [hw]; exact dividerOperand_toNat hv, hframe, hf⟩
  · exact exec_raises hlive (if_neg (Nat.not_lt.2 hv))

/-- Settles O33: the budget written is `lengthBudget`, as a number. -/
theorem wSetlenLoadsTheBudget : Obligations.WSetlenLoadsTheBudget := by
  refine fun len => ⟨decode_wSetlenWord len, exec_yieldsToLatch _, fun s hlive => ?_⟩
  obtain ⟨t, ht, hans, hw, hframe, hf⟩ :=
    exec_writesWave (i := .wSetlen len) (w := s.wave.setRemaining (lengthBudget len)) hlive rfl
  exact ⟨t, ht, hans, by rw [hw]; exact lengthBudget_toNat len, by rw [hw]; rfl, hframe, hf⟩

/-- Settles O34: the effect writes the channel's mode. -/
theorem wSetmodeWritesTheMode : Obligations.WSetmodeWritesTheMode :=
  ⟨rfl, rfl, fun _ => ⟨exec_yieldsToLatch _, fun _ hlive => exec_writesWave hlive rfl⟩⟩

/-- Settles O35: the effect writes the channel's gate. -/
theorem wSetenWritesTheGate : Obligations.WSetenWritesTheGate :=
  ⟨rfl, rfl, fun _ => ⟨exec_yieldsToLatch _, fun _ hlive => exec_writesWave hlive rfl⟩⟩

/-- Settles O36: the effect writes the channel's level. -/
theorem wSetlvlWritesTheLevel : Obligations.WSetlvlWritesTheLevel :=
  ⟨rfl, rfl, rfl, rfl, fun _ => ⟨exec_yieldsToLatch _, fun _ hlive => exec_writesWave hlive rfl⟩⟩

end Sys2Proof.Machine

/-! SUPPORT and SETTLEMENT. Fatal outcomes (spec/60_exceptions.md R179): whatever answers a fatal condition, an
operation, a reserved word or a step, does exactly what `raiseFatal` does. -/

namespace Sys2Proof.Machine

/-! ### Answers that are fatal -/

@[simp] theorem State.lastOutcome_answer (s : State) (o : OpOutcome) : (s.answer o).lastOutcome = some o := rfl

/-- Latching the condition already latched changes nothing. -/
theorem State.setFatal_of_latched {s : State} {f : Fatal} (h : s.fatal = some f) : s.setFatal (some f) = s := by
  rw [← h]; rfl

section FatalOutcomes

variable {s t : State} {f : Fatal}

/-- The condition answered is the one raised. -/
theorem raiseFatal_eq_of_lastOutcome {g : Fatal} (h : raiseFatal g s = .next t)
    (hf : t.lastOutcome = some (.fatal f)) : raiseFatal f s = .next t := by
  have hgf : g = f := by simpa [raiseFatal_cases h] using hf
  rwa [← hgf]

/-- The check of the latch answers a latched condition as if it were raised again, so only what follows the check
has to be looked at. -/
theorem unlessFatal_fatal {k : State → Result}
    (hk : k s = .next t → t.lastOutcome = some (.fatal f) → raiseFatal f s = .next t)
    (h : unlessFatal s k = .next t) (hf : t.lastOutcome = some (.fatal f)) : raiseFatal f s = .next t := by
  obtain ⟨g, hg, rfl⟩ | ⟨-, hlive⟩ := unlessFatal_cases h
  · have hraise : raiseFatal g s = .next (s.answer (.fatal g)) := by
      rw [raiseFatal, State.setFatal_of_latched hg]
    exact raiseFatal_eq_of_lastOutcome hraise hf
  · exact hk hlive hf

/-- The three ways an effect ends (R176). -/
theorem effect_answers (i : Instr) (s : State) :
    (∃ f, effect i s = raiseFatal f s) ∨ (∃ r u, effect i s = done r u) ∨
      ∃ r d u, effect i s = doneDiag r d u := by
  cases i with
  | rdUnmapped _ | wrUnmapped _ _ | wrLy _ => exact .inl ⟨_, rfl⟩
  | rdIo _ | wrRom _ _ | wrIo _ _ => exact .inr (.inr ⟨_, _, _, rfl⟩)
  | wRamrd _ | wRamwr _ _ | wSetdiv _ =>
    simp only [effect]
    split
    · exact .inr (.inl ⟨_, _, rfl⟩)
    · exact .inl ⟨_, rfl⟩
  | _ => exact .inr (.inl ⟨_, _, rfl⟩)

/-- An effect that answers a fatal condition has raised it: the completions answer none. -/
theorem effect_fatal {i : Instr} (h : effect i s = .next t) (hf : t.lastOutcome = some (.fatal f)) :
    raiseFatal f s = .next t := by
  obtain ⟨g, he⟩ | ⟨r, u, he⟩ | ⟨r, d, u, he⟩ := effect_answers i s
  · exact raiseFatal_eq_of_lastOutcome (he ▸ h) hf
  · simp [done_cases (he ▸ h)] at hf
  · simp [doneDiag_cases (he ▸ h)] at hf

/-- An operation that answers a fatal condition, latched before or met now, does what `raiseFatal` does. -/
theorem exec_fatal {i : Instr} (h : exec i s = .next t) (hf : t.lastOutcome = some (.fatal f)) :
    raiseFatal f s = .next t :=
  unlessFatal_fatal effect_fatal (exec_eq_unlessFatal i s ▸ h) hf

/-- As `exec_fatal`, of a reserved word. -/
theorem execIllegal_fatal {c : Command} (h : execIllegal c s = .next t) (hf : t.lastOutcome = some (.fatal f)) :
    raiseFatal f s = .next t := unlessFatal_fatal raiseFatal_eq_of_lastOutcome h hf

/-! ### A step that takes a word -/

/-- Everything a step can do when a command is waiting. -/
theorem step_cases {c : Command} {rest : List Command} (hp : s.pending = c :: rest) :
    (∃ i, decodeCommand c = .legal i ∧ step s = exec i (s.setPending rest)) ∨
      (∃ w, decodeCommand c = .illegal w) ∧ step s = execIllegal c (s.setPending rest) := by
  have htake : s.takeCommand = some (c, s.setPending rest) := by simp [State.takeCommand, hp]
  cases hd : decodeCommand c with
  | legal i => exact .inl ⟨i, rfl, by simp [step, htake, hd]⟩
  | illegal w => exact .inr ⟨⟨w, rfl⟩, by simp [step, htake, hd]⟩

/-- As `exec_fatal`, of a step, in the state in which the word has been taken. -/
theorem step_fatal {c : Command} {rest : List Command} (hp : s.pending = c :: rest) (h : step s = .next t)
    (hf : t.lastOutcome = some (.fatal f)) : raiseFatal f (s.setPending rest) = .next t := by
  obtain ⟨i, -, hstep⟩ | ⟨-, hstep⟩ := step_cases hp
  · exact exec_fatal (hstep ▸ h) hf
  · exact execIllegal_fatal (hstep ▸ h) hf

end FatalOutcomes

/-! ### The obligation -/

/-- Settles O41: by `exec_fatal` and `step_fatal` the state after is that of `raiseFatal`, field by field. -/
theorem fatalChangesNothingButTheLatch : Obligations.FatalChangesNothingButTheLatch := by
  refine ⟨fun i s t f h hf => ?_, fun s t c rest f hp h hf => ?_⟩
  · rw [raiseFatal_cases (exec_fatal h hf)]
    exact ⟨⟨rfl, rfl⟩, ⟨rfl, rfl, rfl, rfl⟩, rfl⟩
  · rw [raiseFatal_cases (step_fatal hp h hf)]
    exact ⟨rfl, rfl, ⟨rfl, rfl, rfl, rfl⟩, rfl⟩

end Sys2Proof.Machine

/-! SUPPORT and SETTLEMENT. The command words (spec/30_encoding.md R73 to R77, R82, R83): a legal word is the word of
the operation it is read as, and the word of a well-formed operation is read as that operation. From the two come the
list of the reserved words and the agreement with the rows of the opcode table. -/

namespace Sys2Proof

/-! ### The fields of a word -/

/-- A field of a word holds a value exactly if the numbers agree. -/
theorem field_eq_iff {n : Nat} (w : BitVec n) (lo len : Nat) (c : BitVec len) :
    w.extractLsb' lo len = c ↔ w.toNat / 2 ^ lo % 2 ^ len = c.toNat := by
  rw [← toNat_field, BitVec.toNat_inj]

/-- A format B word is its three fields. -/
theorem busWord_eq {w : BitVec 26} {b : BitVec 2} {a : Addr} {d : Byte}
    (hb : w.extractLsb' 24 2 = b) (ha : w.extractLsb' 8 16 = a) (hd : w.extractLsb' 0 8 = d) :
    b ++ a ++ d = w := by
  refine BitVec.eq_of_toNat_eq ((toNat_append3 b a d).trans ?_)
  have := w.isLt
  rw [field_eq_iff] at hb ha hd
  omega

/-- A format K word is its three fields. -/
theorem bankWord_eq {w : BitVec 17} {k : BitVec 1} {off d : Byte}
    (hk : w.extractLsb' 16 1 = k) (hoff : w.extractLsb' 8 8 = off) (hd : w.extractLsb' 0 8 = d) :
    k ++ off ++ d = w := by
  refine BitVec.eq_of_toNat_eq ((toNat_append3 k off d).trans ?_)
  have := w.isLt
  rw [field_eq_iff] at hk hoff hd
  omega

/-- A format W word is its `wop` and the two bytes of its `arg`. -/
theorem waveWord_eq {w : BitVec 20} {o : BitVec 4} {hi lo : Byte}
    (ho : w.extractLsb' 16 4 = o) (harg : w.toNat % 2 ^ 16 = hi.toNat * 2 ^ 8 + lo.toNat) :
    o ++ hi ++ lo = w := by
  refine BitVec.eq_of_toNat_eq ((waveWord_toNat o hi lo).trans ?_)
  have := w.isLt
  rw [field_eq_iff] at ho
  omega

/-- A format W word whose `arg` is a code `c` of `k` bits below a field of zeros. -/
theorem waveWord_eq_of_field {w : BitVec 20} {o : BitVec 4} {k : Nat} {c : Byte} (hk : k ≤ 16)
    (ho : w.extractLsb' 16 4 = o) (hz : w.extractLsb' k (16 - k) = 0#(16 - k))
    (hc : c.toNat = (w.extractLsb' 0 k).toNat) : o ++ 0#8 ++ c = w := by
  refine waveWord_eq ho ?_
  rw [toNat_field, Nat.pow_zero, Nat.div_one] at hc
  rw [field_eq_iff, BitVec.toNat_ofNat, Nat.zero_mod] at hz
  calc w.toNat % 2 ^ 16 = w.toNat % (2 ^ k * 2 ^ (16 - k)) := by rw [← Nat.pow_add, Nat.add_sub_cancel' hk]
    _ = c.toNat := by rw [Nat.mod_mul, hz, Nat.mul_zero, Nat.add_zero, hc]
    _ = (0#8).toNat * 2 ^ 8 + c.toNat := by simp

/-- A format W word whose `arg` is zero. -/
theorem waveWord_eq_of_arg_zero {w : BitVec 20} {o : BitVec 4} (ho : w.extractLsb' 16 4 = o)
    (hz : w.extractLsb' 0 16 = 0#16) : o ++ 0#8 ++ 0#8 = w :=
  waveWord_eq_of_field (k := 0) (Nat.zero_le _) ho hz (by rw [BitVec.toNat_of_zero_length rfl]; rfl)

/-! ### The codes of the one-byte operands (R78) -/

theorem Mode.code_ofCode (c : BitVec 1) : (Mode.ofCode c).code.toNat = c.toNat := by
  revert c; decide

theorem Level.code_ofCode (c : BitVec 2) : (Level.ofCode c).code.toNat = c.toNat := by
  revert c; decide

theorem boolCode_ofCode (c : BitVec 1) : (boolCode (c = 1#1)).toNat = c.toNat := by
  revert c; decide

/-! ### A legal word is the word of its operation -/

/-- A word is reserved or legal, and not both. -/
theorem Decoded.illegal_iff {x : Decoded} : (∃ r, x = .illegal r) ↔ ¬ ∃ i, x = .legal i := by
  cases x <;> simp

section Branches

variable {P Q : Prop} [Decidable P] [Decidable Q] {r : Illegal} {i j : Instr} {x : Decoded}

/-- A guarded operation is legal only with its must-be-zero field zero. -/
theorem Decoded.of_guard (h : Decoded.guard (decide Q) r j = .legal i) : Q ∧ j = i := by
  by_cases hq : Q
  · simp only [Decoded.guard, hq, decide_true, if_true, Decoded.legal.injEq] at h
    exact ⟨hq, h⟩
  · simp [Decoded.guard, hq] at h

/-- A branch of the decoder with a guarded operation: taken with its field zero, or passed. -/
theorem Decoded.of_ite_guard (h : (if P then Decoded.guard (decide Q) r j else x) = .legal i) :
    (P ∧ Q ∧ j = i) ∨ (¬ P ∧ x = .legal i) :=
  (ite_eq_iff.1 h).imp_left fun ⟨hp, hg⟩ => ⟨hp, Decoded.of_guard hg⟩

/-- A branch of the decoder with no must-be-zero field: taken, or passed. -/
theorem Decoded.of_ite_legal (h : (if P then .legal j else x) = Decoded.legal i) :
    (P ∧ j = i) ∨ (¬ P ∧ x = .legal i) :=
  (ite_eq_iff.1 h).imp_left fun ⟨hp, hj⟩ => ⟨hp, Decoded.legal.inj hj⟩

end Branches

/-- Everything a legal BUS word can be. -/
theorem decodeBus_cases {w : BitVec 26} {i : Instr} (h : decodeBus w = .legal i) :
    (∃ a, 0b00#2 ++ a ++ 0#8 = w ∧ rdForm a = i) ∨ (∃ a v, 0b01#2 ++ a ++ v = w ∧ wrForm a v = i) ∨
      (0b10#2 ++ 0#16 ++ 0#8 = w ∧ .busStep = i) ∨ (0b11#2 ++ 0#16 ++ 0#8 = w ∧ .busReset = i) := by
  obtain ⟨hb, hd, hi⟩ | ⟨hrd, h⟩ := Decoded.of_ite_guard h
  · exact .inl ⟨_, busWord_eq hb rfl hd, hi⟩
  obtain ⟨hb, hi⟩ | ⟨hwr, h⟩ := Decoded.of_ite_legal h
  · exact .inr (.inl ⟨_, _, busWord_eq hb rfl rfl, hi⟩)
  obtain ⟨hb, ⟨ha, hd⟩, hi⟩ | ⟨hstep, h⟩ := Decoded.of_ite_guard h
  · exact .inr (.inr (.inl ⟨busWord_eq hb ha hd, hi⟩))
  obtain ⟨⟨ha, hd⟩, hi⟩ := Decoded.of_guard h
  have hb : w.extractLsb' 24 2 = 0b11#2 := by
    generalize w.extractLsb' 24 2 = b at hrd hwr hstep
    revert b; decide
  exact .inr (.inr (.inr ⟨busWord_eq hb ha hd, hi⟩))

/-- Everything a legal BANK word can be. -/
theorem decodeBank_cases {w : BitVec 17} {i : Instr} (h : decodeBank w = .legal i) :
    (∃ off, 0#1 ++ off ++ 0#8 = w ∧ .bankGet off = i) ∨ (∃ off v, 1#1 ++ off ++ v = w ∧ .bankSet off v = i) := by
  obtain ⟨hk, hd, hi⟩ | ⟨hget, h⟩ := Decoded.of_ite_guard h
  · exact .inl ⟨_, bankWord_eq hk rfl hd, hi⟩
  have hk : w.extractLsb' 16 1 = 1#1 := (BitVec.eq_zero_or_eq_one _).resolve_left hget
  exact .inr ⟨_, _, bankWord_eq hk rfl rfl, Decoded.legal.inj h⟩

/-- A form of `RD` has the word of the address it is the form of. -/
theorem rdForm_encodes (a : Addr) :
    (rdForm a).WellFormed ∧ encode (rdForm a) = .bus (0b00#2 ++ a ++ 0#8) := by
  obtain h | h | h | rfl | h := addr_cases a
  · rw [rdForm_rom h]; exact ⟨decide_eq_true h, rfl⟩
  · rw [rdForm_ram h]; exact ⟨decide_eq_true h, rfl⟩
  · rw [rdForm_unmapped h]; exact ⟨decide_eq_true h, rfl⟩
  · exact ⟨rfl, rfl⟩
  · rw [rdForm_inIo h]; exact ⟨decide_eq_true h, rfl⟩

/-- A form of `WR` has the word of the address and the value it is the form of. -/
theorem wrForm_encodes (a : Addr) (v : Byte) :
    (wrForm a v).WellFormed ∧ encode (wrForm a v) = .bus (0b01#2 ++ a ++ v) := by
  obtain h | h | h | rfl | h := addr_cases a
  · rw [wrForm_rom v h]; exact ⟨decide_eq_true h, rfl⟩
  · rw [wrForm_ram v h]; exact ⟨decide_eq_true h, rfl⟩
  · rw [wrForm_unmapped v h]; exact ⟨decide_eq_true h, rfl⟩
  · exact ⟨rfl, rfl⟩
  · rw [wrForm_inIo v h]; exact ⟨decide_eq_true h, rfl⟩

theorem decodeBus_legal {w : BitVec 26} {i : Instr} (h : decodeBus w = .legal i) :
    i.WellFormed ∧ encode i = .bus w := by
  obtain ⟨a, rfl, rfl⟩ | ⟨a, v, rfl, rfl⟩ | ⟨rfl, rfl⟩ | ⟨rfl, rfl⟩ := decodeBus_cases h
  · exact rdForm_encodes a
  · exact wrForm_encodes a v
  · exact ⟨rfl, rfl⟩
  · exact ⟨rfl, rfl⟩

theorem decodeBank_legal {w : BitVec 17} {i : Instr} (h : decodeBank w = .legal i) :
    i.WellFormed ∧ encode i = .bank w := by
  obtain ⟨off, rfl, rfl⟩ | ⟨off, v, rfl, rfl⟩ := decodeBank_cases h <;> exact ⟨rfl, rfl⟩

/-- The branches of the WAVE decoder, `wop` by `wop`: each rebuilds the word it has read. -/
theorem decodeWave_legal {w : BitVec 20} {i : Instr} (h : decodeWave w = .legal i) :
    i.WellFormed ∧ encode i = .wave w := by
  obtain ⟨ho, hz, rfl⟩ | ⟨-, h⟩ := Decoded.of_ite_guard h
  · exact ⟨rfl, congrArg _ (waveWord_eq_of_arg_zero ho hz)⟩
  obtain ⟨ho, hz, rfl⟩ | ⟨-, h⟩ := Decoded.of_ite_guard h
  · exact ⟨rfl, congrArg _ (waveWord_eq_of_arg_zero ho hz)⟩
  obtain ⟨ho, hz, rfl⟩ | ⟨-, h⟩ := Decoded.of_ite_guard h
  · exact ⟨rfl, congrArg _ (waveWord_eq_of_field (k := 8) (by omega) ho hz rfl)⟩
  obtain ⟨ho, rfl⟩ | ⟨-, h⟩ := Decoded.of_ite_legal h
  · exact ⟨rfl, congrArg _ (waveWord_eq ho (by simp only [toNat_field]; omega))⟩
  obtain ⟨ho, hz, rfl⟩ | ⟨-, h⟩ := Decoded.of_ite_guard h
  · exact ⟨rfl, congrArg _ (waveWord_eq_of_arg_zero ho hz)⟩
  obtain ⟨ho, hz, rfl⟩ | ⟨-, h⟩ := Decoded.of_ite_guard h
  · exact ⟨rfl, congrArg _ (waveWord_eq_of_arg_zero ho hz)⟩
  obtain ⟨ho, rfl⟩ | ⟨-, h⟩ := Decoded.of_ite_legal h
  · exact ⟨rfl, congrArg _ (waveWord_eq ho (by simp only [toNat_field]; omega))⟩
  obtain ⟨ho, hz, rfl⟩ | ⟨-, h⟩ := Decoded.of_ite_guard h
  · exact ⟨rfl, congrArg _ (waveWord_eq_of_field (k := 1) (by omega) ho hz (Mode.code_ofCode _))⟩
  obtain ⟨ho, hz, rfl⟩ | ⟨-, h⟩ := Decoded.of_ite_guard h
  · exact ⟨rfl, congrArg _ (waveWord_eq_of_field (k := 8) (by omega) ho hz rfl)⟩
  obtain ⟨ho, hz, rfl⟩ | ⟨-, h⟩ := Decoded.of_ite_guard h
  · exact ⟨rfl, congrArg _ (waveWord_eq_of_field (k := 1) (by omega) ho hz (boolCode_ofCode _))⟩
  obtain ⟨ho, hz, rfl⟩ | ⟨-, h⟩ := Decoded.of_ite_guard h
  · exact ⟨rfl, congrArg _ (waveWord_eq_of_field (k := 2) (by omega) ho hz (Level.code_ofCode _))⟩
  · cases h

/-- Settles O3: port by port. -/
theorem legalWordEncodesBack : Obligations.LegalWordEncodesBack := by
  intro c i h
  cases c with
  | bus w => exact decodeBus_legal h
  | bank w => exact decodeBank_legal h
  | wave w => exact decodeWave_legal h

/-! ### The words of the operations -/

/-- `{0, off, 0}` is read as `BANK.GET off` (R74). -/
theorem decode_bankGetWord (off : Byte) : decodeCommand (.bank (0#1 ++ off ++ 0#8)) = .legal (.bankGet off) := by
  simp only [decodeCommand, decodeBank, bankWord_kop, bankWord_off, bankWord_data, Decoded.guard, decide_true,
    if_true]

/-- `{0010, 0, index}` is read as `W.RAMRD index` (R77). -/
theorem decode_wRamrdWord (i : Byte) :
    decodeCommand (.wave (0x2#4 ++ 0#8 ++ i)) = .legal (.wRamrd i) := by
  simp only [decodeCommand, decodeWave, waveWord_wop, waveWord_hi, waveWord_lo, Decoded.guard, BitVec.reduceEq,
    decide_true, if_true, if_false]

/-- `{0011, amplitude, index}` is read as `W.RAMWR index, amplitude` (R77). -/
theorem decode_wRamwrWord (i a : Byte) :
    decodeCommand (.wave (0x3#4 ++ a ++ i)) = .legal (.wRamwr i a) := by
  simp only [decodeCommand, decodeWave, waveWord_wop, waveWord_hi, waveWord_lo, BitVec.reduceEq, if_true, if_false]

/-- The word of `W.SETDIV v` holds `v` in its `arg`. -/
theorem encode_wSetdiv (v : BitVec 16) : encode (.wSetdiv v) = .wave (0x6#4 ++ v) := by
  refine congrArg Command.wave (BitVec.eq_of_toNat_eq ((waveWord_toNat 0x6#4 _ _).trans ?_))
  have := v.isLt
  rw [toNat_append_eq, toNat_field, toNat_field]
  omega

theorem decode_encode_rdForm (a : Addr) : decodeCommand (encode (rdForm a)) = .legal (rdForm a) := by
  obtain ⟨-, henc⟩ := rdForm_encodes a
  rw [henc, decode_rdWord]

theorem decode_encode_wrForm (a : Addr) (v : Byte) :
    decodeCommand (encode (wrForm a v)) = .legal (wrForm a v) := by
  obtain ⟨-, henc⟩ := wrForm_encodes a v
  rw [henc, decode_wrWord]

/-- Settles O2: the decoder's equation for the word of each operation. -/
theorem decodeOfEncodeIsTheOperation : Obligations.DecodeOfEncodeIsTheOperation := by
  intro i hwf
  cases i with
  | rdRom a => exact rdForm_rom (of_decide_eq_true hwf) ▸ decode_encode_rdForm a
  | rdRam a => exact rdForm_ram (of_decide_eq_true hwf) ▸ decode_encode_rdForm a
  | rdUnmapped a => exact rdForm_unmapped (of_decide_eq_true hwf) ▸ decode_encode_rdForm a
  | rdLy => exact decode_rdWord 0xFF44#16
  | rdIo a => exact rdForm_inIo (of_decide_eq_true hwf) ▸ decode_encode_rdForm a
  | wrRom a v => exact wrForm_rom v (of_decide_eq_true hwf) ▸ decode_encode_wrForm a v
  | wrRam a v => exact wrForm_ram v (of_decide_eq_true hwf) ▸ decode_encode_wrForm a v
  | wrUnmapped a v => exact wrForm_unmapped v (of_decide_eq_true hwf) ▸ decode_encode_wrForm a v
  | wrLy v => exact decode_wrWord 0xFF44#16 v
  | wrIo a v => exact wrForm_inIo v (of_decide_eq_true hwf) ▸ decode_encode_wrForm a v
  | bankGet off => exact decode_bankGetWord off
  | bankSet off v => exact decode_bankSetWord off v
  | wRamrd i => exact decode_wRamrdWord i
  | wRamwr i a => exact decode_wRamwrWord i a
  | wSetdiv v => exact encode_wSetdiv v ▸ decode_wSetdivWord v
  | wSetlen len => exact decode_wSetlenWord len
  | wSetmode m => cases m <;> rfl
  | wSeten b => cases b <;> rfl
  | wSetlvl l => cases l <;> rfl
  | busStep | busReset | wStep | wSample | wStart | wDiv => rfl

end Sys2Proof

/-! SUPPORT and SETTLEMENT. The reserved words (spec/30_encoding.md R83) and the rows of the opcode table (R82): a row
whose mask is a run of high bits selects a block of words, a row of `RD` or `WR` the words of a block of addresses, and
the blocks are the words that are not reserved. -/

namespace Sys2Proof

/-! ### Rows that select a block of words -/

/-- The number of words a row selects if its mask is a run of high bits. -/
def TableRow.size {n : Nat} (r : TableRow n) : Nat := 2 ^ n - r.mask.toNat

/-- The row's mask is a run of high bits, and its pattern is zero below it. -/
abbrev TableRow.IsBlock {n : Nat} (r : TableRow n) : Prop :=
  ∃ k < n + 1, r.mask = BitVec.allOnes n <<< k ∧ r.size = 2 ^ k ∧ r.pattern.toNat % 2 ^ k = 0

/-- A word with its low `k` bits cleared, as a number. -/
theorem toNat_and_highBits {n k : Nat} (w : BitVec n) :
    (w &&& (BitVec.allOnes n <<< k)).toNat = w.toNat / 2 ^ k * 2 ^ k := by
  have hw : w &&& (BitVec.allOnes n <<< k) = w >>> k <<< k := by
    ext i hi
    by_cases hk : i < k
    · simp [hk]
    · simp [hk, hi, Nat.add_sub_cancel' (Nat.not_lt.1 hk)]
  rw [hw, BitVec.toNat_shiftLeft, BitVec.toNat_ushiftRight, Nat.shiftRight_eq_div_pow, Nat.shiftLeft_eq]
  exact Nat.mod_eq_of_lt ((Nat.div_mul_le_self _ _).trans_lt w.isLt)

/-- A block selects the words from its pattern on, as many as its size. -/
theorem TableRow.IsBlock.selects_iff {n : Nat} {r : TableRow n} (h : r.IsBlock) (w : BitVec n) :
    r.selects w ↔ r.pattern.toNat ≤ w.toNat ∧ w.toNat < r.pattern.toNat + r.size := by
  obtain ⟨k, -, hmask, hsize, hpat⟩ := h
  obtain ⟨q, hq⟩ := Nat.dvd_of_mod_eq_zero hpat
  rw [TableRow.selects, decide_eq_true_iff, ← BitVec.toNat_inj, hmask, toNat_and_highBits, hsize, hq,
    Nat.mul_comm, Nat.mul_right_inj (Nat.two_pow_pos k).ne', Nat.div_eq_iff (Nat.two_pow_pos k)]
  have := Nat.two_pow_pos k
  rw [Nat.mul_comm]
  omega

theorem waveRows_isBlock : ∀ r ∈ waveRows, r.IsBlock := by decide

theorem append_eq_append_iff {n m : Nat} {x x' : BitVec n} {y y' : BitVec m} :
    x ++ y = x' ++ y' ↔ x = x' ∧ y = y' := by
  refine ⟨fun h => ⟨?_, ?_⟩, fun ⟨hx, hy⟩ => by rw [hx, hy]⟩
  · rw [← BitVec.extractLsb'_append_eq_left (a := x) (b := y), h, BitVec.extractLsb'_append_eq_left]
  · rw [← BitVec.extractLsb'_append_eq_right (a := x) (b := y), h, BitVec.extractLsb'_append_eq_right]

/-- A row looks at the fields of a word one by one. -/
theorem selects_fields_iff {k n m : Nat} (f : Form) (px mx x : BitVec k) (py my y : BitVec n) (pz mz z : BitVec m) :
    TableRow.selects ⟨f, px ++ py ++ pz, mx ++ my ++ mz⟩ (x ++ y ++ z) ↔
      x &&& mx = px ∧ y &&& my = py ∧ z &&& mz = pz := by
  rw [TableRow.selects, decide_eq_true_iff, BitVec.and_append, BitVec.and_append, append_eq_append_iff,
    append_eq_append_iff, and_assoc]

/-- A row that looks at every bit selects its pattern only. -/
theorem TableRow.eq_pattern_of_full {n : Nat} {r : TableRow n} {w : BitVec n} (hmask : r.mask = BitVec.allOnes n)
    (h : r.selects w) : w = r.pattern := by
  rw [← of_decide_eq_true h, hmask, BitVec.and_allOnes]

/-- Two rows that select one word agree where both masks look, so rows that never agree there are disjoint. -/
theorem rows_disjoint {n : Nat} {rows : List (TableRow n)}
    (h : ∀ r ∈ rows, ∀ q ∈ rows, r.pattern &&& q.mask = q.pattern &&& r.mask → r = q) (w : BitVec n) :
    ∀ r ∈ rows, ∀ q ∈ rows, r.selects w → q.selects w → r = q := by
  intro r hr q hq hrw hqw
  refine h r hr q hq ?_
  rw [← of_decide_eq_true hrw, ← of_decide_eq_true hqw, BitVec.and_assoc, BitVec.and_assoc, BitVec.and_comm r.mask]

theorem busRows_disjoint : ∀ r ∈ busRows, ∀ q ∈ busRows, r.pattern &&& q.mask = q.pattern &&& r.mask → r = q := by
  decide

theorem bankRows_disjoint : ∀ r ∈ bankRows, ∀ q ∈ bankRows, r.pattern &&& q.mask = q.pattern &&& r.mask → r = q := by
  decide

theorem waveRows_disjoint : ∀ r ∈ waveRows, ∀ q ∈ waveRows, r.pattern &&& q.mask = q.pattern &&& r.mask → r = q := by
  decide

/-! ### The rows of `RD` and `WR` -/

/-- The blocks of addresses the rows of `RD` select, each with its mnemonic. -/
def addrRows : List (TableRow 16) :=
  rdRows.map fun r => ⟨r.form, r.pattern.extractLsb' 8 16, r.mask.extractLsb' 8 16⟩

/-- The mnemonic of `WR` for the addresses of a mnemonic of `RD`. -/
def Form.wrOf : Form → Form
  | .rdRom => .wrRom
  | .rdRam => .wrRam
  | .rdUnmapped => .wrUnmapped
  | .rdLy => .wrLy
  | .rdIo => .wrIo
  | f => f

/-- The row of `RD` for a block of addresses. -/
def TableRow.rdRow (r : TableRow 16) : TableRow 26 :=
  ⟨r.form, 0b00#2 ++ r.pattern ++ 0#8, 0b11#2 ++ r.mask ++ 0xFF#8⟩

/-- The row of `WR` for a block of addresses. -/
def TableRow.wrRow (r : TableRow 16) : TableRow 26 :=
  ⟨r.form.wrOf, 0b01#2 ++ r.pattern ++ 0#8, 0b11#2 ++ r.mask ++ 0x00#8⟩

theorem rdRows_eq : rdRows = addrRows.map TableRow.rdRow := by decide

theorem wrRows_eq : wrRows = addrRows.map TableRow.wrRow := by decide

theorem addrRows_isBlock : ∀ r ∈ addrRows, r.IsBlock := by decide

/-- Where the blocks lie (R75). -/
theorem addrRows_ranges : ∀ r ∈ addrRows,
    (r.form = .rdRom ∧ r.pattern.toNat + r.size ≤ 0x8000) ∨
    (r.form = .rdRam ∧ 0x8000 ≤ r.pattern.toNat ∧ r.pattern.toNat + r.size ≤ 0xE000) ∨
    (r.form = .rdUnmapped ∧ 0xE000 ≤ r.pattern.toNat ∧ r.pattern.toNat + r.size ≤ 0xFF00) ∨
    (r.form = .rdLy ∧ r.pattern.toNat = 0xFF44 ∧ r.size = 1) ∨
    (r.form = .rdIo ∧ 0xFF00 ≤ r.pattern.toNat ∧ (r.pattern.toNat + r.size ≤ 0xFF44 ∨ 0xFF45 ≤ r.pattern.toNat)) := by
  decide

/-- A block of addresses has the form of its mnemonic. -/
theorem rdForm_form_of_selects {r : TableRow 16} {a : Addr} (hr : r ∈ addrRows) (h : r.selects a) :
    (rdForm a).form = r.form := by
  rw [(addrRows_isBlock r hr).selects_iff] at h
  obtain ⟨hf, hhi⟩ | ⟨hf, hlo, hhi⟩ | ⟨hf, hlo, hhi⟩ | ⟨hf, hlo, hsize⟩ | ⟨hf, hlo, hskip⟩ := addrRows_ranges r hr
  · rw [hf, rdForm_rom (by omega)]; rfl
  · rw [hf, rdForm_ram (by omega)]; rfl
  · rw [hf, rdForm_unmapped (by omega)]; rfl
  · have ha : a = 0xFF44#16 := BitVec.eq_of_toNat_eq (by show a.toNat = 0xFF44; omega)
    rw [hf, ha]; rfl
  · have hne : a ≠ 0xFF44#16 := fun e => by
      have : a.toNat = 0xFF44 := by rw [e]; rfl
      omega
    rw [hf, rdForm_inIo ⟨by omega, hne⟩]; rfl

/-- The blocks as numbers: the first address and the size. -/
theorem addrRows_blocks : addrRows.map (fun r => (r.pattern.toNat, r.size)) =
    [(0x0000, 0x8000), (0x8000, 0x4000), (0xC000, 0x2000), (0xE000, 0x1000), (0xF000, 0x800), (0xF800, 0x400),
      (0xFC00, 0x200), (0xFE00, 0x100), (0xFF44, 0x1), (0xFF80, 0x80), (0xFF00, 0x40), (0xFF60, 0x20),
      (0xFF50, 0x10), (0xFF48, 0x8), (0xFF40, 0x4), (0xFF46, 0x2), (0xFF45, 0x1)] := by decide

/-- The blocks leave no address out. -/
theorem exists_addrRow_selects (a : Addr) : ∃ r ∈ addrRows, r.selects a := by
  have hcover : ∃ b ∈ addrRows.map (fun r => (r.pattern.toNat, r.size)), b.1 ≤ a.toNat ∧ a.toNat < b.1 + b.2 := by
    have := a.isLt
    simp only [addrRows_blocks, List.exists_mem_cons_iff, List.not_mem_nil, false_and, exists_false]
    omega
  obtain ⟨b, hb, hin⟩ := hcover
  obtain ⟨r, hr, rfl⟩ := List.mem_map.1 hb
  exact ⟨r, hr, ((addrRows_isBlock r hr).selects_iff a).2 hin⟩

theorem wrForm_form (a : Addr) (v : Byte) : (wrForm a v).form = (rdForm a).form.wrOf := by
  obtain h | h | h | rfl | h := addr_cases a
  · rw [wrForm_rom v h, rdForm_rom h]; rfl
  · rw [wrForm_ram v h, rdForm_ram h]; rfl
  · rw [wrForm_unmapped v h, rdForm_unmapped h]; rfl
  · rfl
  · rw [wrForm_inIo v h, rdForm_inIo h]; rfl

theorem rdRow_selects_iff (r : TableRow 16) (b : BitVec 2) (a : Addr) (d : Byte) :
    r.rdRow.selects (b ++ a ++ d) ↔ b = 0b00#2 ∧ r.selects a ∧ d = 0#8 := by
  have hb : b &&& 0b11#2 = b := BitVec.and_allOnes
  have hd : d &&& 0xFF#8 = d := BitVec.and_allOnes
  rw [TableRow.rdRow, selects_fields_iff, hb, hd, TableRow.selects, decide_eq_true_iff]

theorem wrRow_selects_iff (r : TableRow 16) (b : BitVec 2) (a : Addr) (d : Byte) :
    r.wrRow.selects (b ++ a ++ d) ↔ b = 0b01#2 ∧ r.selects a := by
  have hb : b &&& 0b11#2 = b := BitVec.and_allOnes
  have hd : d &&& 0x00#8 = 0#8 := BitVec.and_zero
  rw [TableRow.wrRow, selects_fields_iff, hb, hd, TableRow.selects, decide_eq_true_iff, eq_self, and_true]

/-! ### The rows and the decoder, port by port -/

/-- Every row of format B names the operation of the words it selects. -/
theorem busRow_names {r : TableRow 26} {w : BitVec 26} (hr : r ∈ busRows) (h : r.selects w) :
    ∃ i, decodeCommand (.bus w) = .legal i ∧ i.form = r.form := by
  obtain ⟨b, a, d, rfl⟩ : ∃ (b : BitVec 2) (a : Addr) (d : Byte), b ++ a ++ d = w := ⟨_, _, _, busWord_eq rfl rfl rfl⟩
  rw [busRows, rdRows_eq, wrRows_eq, List.append_assoc, List.mem_append, List.mem_append, List.mem_map,
    List.mem_map] at hr
  obtain ⟨q, hq, rfl⟩ | ⟨q, hq, rfl⟩ | hr := hr
  · obtain ⟨rfl, ha, rfl⟩ := (rdRow_selects_iff q b a d).1 h
    exact ⟨_, decode_rdWord a, rdForm_form_of_selects hq ha⟩
  · obtain ⟨rfl, ha⟩ := (wrRow_selects_iff q b a d).1 h
    exact ⟨_, decode_wrWord a d, by rw [wrForm_form, rdForm_form_of_selects hq ha]; rfl⟩
  · simp only [List.mem_cons, List.not_mem_nil, or_false] at hr
    obtain rfl | rfl := hr
    all_goals
      rw [TableRow.eq_pattern_of_full rfl h]
      exact ⟨_, rfl, rfl⟩

/-- A legal word of format B is selected by a row. -/
theorem exists_busRow_of_legal {w : BitVec 26} {i : Instr} (h : decodeCommand (.bus w) = .legal i) :
    ∃ r ∈ busRows, r.selects w := by
  rw [busRows, rdRows_eq, wrRows_eq]
  obtain ⟨a, rfl, -⟩ | ⟨a, v, rfl, -⟩ | ⟨rfl, -⟩ | ⟨rfl, -⟩ := decodeBus_cases h
  · obtain ⟨q, hq, ha⟩ := exists_addrRow_selects a
    exact ⟨q.rdRow, by simp [List.mem_map_of_mem hq], (rdRow_selects_iff _ _ _ _).2 ⟨rfl, ha, rfl⟩⟩
  · obtain ⟨q, hq, ha⟩ := exists_addrRow_selects a
    exact ⟨q.wrRow, by simp [List.mem_map_of_mem hq], (wrRow_selects_iff _ _ _ _).2 ⟨rfl, ha⟩⟩
  · exact ⟨⟨.busStep, 0x2000000, 0x3FFFFFF⟩, by simp, by decide⟩
  · exact ⟨⟨.busReset, 0x3000000, 0x3FFFFFF⟩, by simp, by decide⟩

/-- Every row of format K names the operation of the words it selects. -/
theorem bankRow_names {r : TableRow 17} {w : BitVec 17} (hr : r ∈ bankRows) (h : r.selects w) :
    ∃ i, decodeCommand (.bank w) = .legal i ∧ i.form = r.form := by
  obtain ⟨k, off, d, rfl⟩ : ∃ (k : BitVec 1) (off d : Byte), k ++ off ++ d = w := ⟨_, _, _, bankWord_eq rfl rfl rfl⟩
  simp only [bankRows, List.mem_cons, List.not_mem_nil, or_false] at hr
  obtain rfl | rfl := hr
  · obtain ⟨hk, -, hd⟩ := (selects_fields_iff .bankGet 0#1 1#1 k 0#8 0x00#8 off 0#8 0xFF#8 d).1 h
    obtain rfl : k = 0#1 := BitVec.and_allOnes.symm.trans hk
    obtain rfl : d = 0#8 := BitVec.and_allOnes.symm.trans hd
    exact ⟨_, decode_bankGetWord off, rfl⟩
  · obtain ⟨hk, -, -⟩ := (selects_fields_iff .bankSet 1#1 1#1 k 0#8 0x00#8 off 0#8 0x00#8 d).1 h
    obtain rfl : k = 1#1 := BitVec.and_allOnes.symm.trans hk
    exact ⟨_, decode_bankSetWord off d, rfl⟩

/-- A legal word of format K is selected by a row. -/
theorem exists_bankRow_of_legal {w : BitVec 17} {i : Instr} (h : decodeCommand (.bank w) = .legal i) :
    ∃ r ∈ bankRows, r.selects w := by
  obtain ⟨off, rfl, -⟩ | ⟨off, v, rfl, -⟩ := decodeBank_cases h
  · exact ⟨⟨.bankGet, 0x00000, 0x100FF⟩, by simp [bankRows],
      (selects_fields_iff .bankGet 0#1 1#1 0#1 0#8 0x00#8 off 0#8 0xFF#8 0#8).2 ⟨rfl, BitVec.and_zero, rfl⟩⟩
  · exact ⟨⟨.bankSet, 0x10000, 0x10000⟩, by simp [bankRows],
      (selects_fields_iff .bankSet 1#1 1#1 1#1 0#8 0x00#8 off 0#8 0x00#8 v).2 ⟨rfl, BitVec.and_zero, BitVec.and_zero⟩⟩

/-- A format W row whose mask is all of `wop` and the masks `mh` and `ml` of the two bytes of `arg`. -/
theorem waveRow_selects_iff (f : Form) (op o : BitVec 4) (mh hi ml lo : Byte) :
    TableRow.selects (n := 20) ⟨f, op ++ 0#8 ++ 0#8, 0xF#4 ++ mh ++ ml⟩ (o ++ hi ++ lo) ↔
      o = op ∧ hi &&& mh = 0#8 ∧ lo &&& ml = 0#8 := by
  have ho : o &&& 0xF#4 = o := BitVec.and_allOnes
  rw [selects_fields_iff, ho]

/-- `{0110, arg}` is read as `W.SETDIV arg`, whatever the two bytes of `arg` (R77). -/
theorem decode_wSetdivBytes (hi lo : Byte) :
    ∃ v, decodeCommand (.wave (0x6#4 ++ hi ++ lo)) = .legal (.wSetdiv v) :=
  ⟨_, by simp only [decodeCommand, decodeWave, waveWord_wop, BitVec.reduceEq, if_true, if_false]; rfl⟩

/-- The bytes with only bit 0 free: the codes of a mode and of the gate. -/
theorem oneBitCode_cases : ∀ x : Byte, x &&& 0xFE#8 = 0#8 → x = 0#8 ∨ x = 1#8 := by decide

/-- The bytes with only bits 1:0 free: the codes of a level. -/
theorem twoBitCode_cases : ∀ x : Byte, x &&& 0xFC#8 = 0#8 → x = 0#8 ∨ x = 1#8 ∨ x = 2#8 ∨ x = 3#8 := by decide

/-- Every row of format W names the operation of the words it selects. -/
theorem waveRow_names {r : TableRow 20} {w : BitVec 20} (hr : r ∈ waveRows) (h : r.selects w) :
    ∃ i, decodeCommand (.wave w) = .legal i ∧ i.form = r.form := by
  obtain ⟨o, hi, lo, rfl⟩ : ∃ (o : BitVec 4) (hi lo : Byte), o ++ hi ++ lo = w :=
    ⟨_, w.extractLsb' 8 8, w.extractLsb' 0 8, waveWord_eq rfl (by simp only [toNat_field]; omega)⟩
  have zero {x : Byte} (hx : x &&& 0xFF#8 = 0#8) : x = 0#8 := BitVec.and_allOnes.symm.trans hx
  simp only [waveRows, List.mem_cons, List.not_mem_nil, or_false] at hr
  obtain rfl | rfl | rfl | rfl | rfl | rfl | rfl | rfl | rfl | rfl | rfl := hr
  · rw [TableRow.eq_pattern_of_full rfl h]
    exact ⟨_, rfl, rfl⟩
  · rw [TableRow.eq_pattern_of_full rfl h]
    exact ⟨_, rfl, rfl⟩
  · obtain ⟨rfl, hhi, -⟩ := (waveRow_selects_iff .wRamrd 0x2#4 o 0xFF#8 hi 0x00#8 lo).1 h
    rw [zero hhi]
    exact ⟨_, decode_wRamrdWord lo, rfl⟩
  · obtain ⟨rfl, -, -⟩ := (waveRow_selects_iff .wRamwr 0x3#4 o 0x00#8 hi 0x00#8 lo).1 h
    exact ⟨_, decode_wRamwrWord lo hi, rfl⟩
  · rw [TableRow.eq_pattern_of_full rfl h]
    exact ⟨_, rfl, rfl⟩
  · rw [TableRow.eq_pattern_of_full rfl h]
    exact ⟨_, rfl, rfl⟩
  · obtain ⟨rfl, -, -⟩ := (waveRow_selects_iff .wSetdiv 0x6#4 o 0x00#8 hi 0x00#8 lo).1 h
    obtain ⟨v, hv⟩ := decode_wSetdivBytes hi lo
    exact ⟨_, hv, rfl⟩
  · obtain ⟨rfl, hhi, hlo⟩ := (waveRow_selects_iff .wSetmode 0x7#4 o 0xFF#8 hi 0xFE#8 lo).1 h
    rw [zero hhi]
    obtain rfl | rfl := oneBitCode_cases lo hlo <;> exact ⟨_, rfl, rfl⟩
  · obtain ⟨rfl, hhi, -⟩ := (waveRow_selects_iff .wSetlen 0x8#4 o 0xFF#8 hi 0x00#8 lo).1 h
    rw [zero hhi]
    exact ⟨_, decode_wSetlenWord lo, rfl⟩
  · obtain ⟨rfl, hhi, hlo⟩ := (waveRow_selects_iff .wSeten 0x9#4 o 0xFF#8 hi 0xFE#8 lo).1 h
    rw [zero hhi]
    obtain rfl | rfl := oneBitCode_cases lo hlo <;> exact ⟨_, rfl, rfl⟩
  · obtain ⟨rfl, hhi, hlo⟩ := (waveRow_selects_iff .wSetlvl 0xA#4 o 0xFF#8 hi 0xFC#8 lo).1 h
    rw [zero hhi]
    obtain rfl | rfl | rfl | rfl := twoBitCode_cases lo hlo <;> exact ⟨_, rfl, rfl⟩

/-- A legal word of format W is selected by a row. -/
theorem exists_waveRow_of_legal {w : BitVec 20} {i : Instr} (h : decodeCommand (.wave w) = .legal i) :
    ∃ r ∈ waveRows, r.selects w := by
  obtain ⟨-, henc⟩ := decodeWave_legal h
  cases i with
  | wStep => cases henc; exact ⟨⟨.wStep, 0x00000, 0xFFFFF⟩, by simp [waveRows], by decide⟩
  | wSample => cases henc; exact ⟨⟨.wSample, 0x10000, 0xFFFFF⟩, by simp [waveRows], by decide⟩
  | wStart => cases henc; exact ⟨⟨.wStart, 0x40000, 0xFFFFF⟩, by simp [waveRows], by decide⟩
  | wDiv => cases henc; exact ⟨⟨.wDiv, 0x50000, 0xFFFFF⟩, by simp [waveRows], by decide⟩
  | wRamrd i =>
    cases henc
    exact ⟨⟨.wRamrd, 0x20000, 0xFFF00⟩, by simp [waveRows],
      (waveRow_selects_iff .wRamrd 0x2#4 0x2#4 0xFF#8 0#8 0x00#8 i).2 ⟨rfl, rfl, BitVec.and_zero⟩⟩
  | wRamwr i a =>
    cases henc
    exact ⟨⟨.wRamwr, 0x30000, 0xF0000⟩, by simp [waveRows],
      (waveRow_selects_iff .wRamwr 0x3#4 0x3#4 0x00#8 a 0x00#8 i).2 ⟨rfl, BitVec.and_zero, BitVec.and_zero⟩⟩
  | wSetdiv v =>
    cases henc
    exact ⟨⟨.wSetdiv, 0x60000, 0xF0000⟩, by simp [waveRows],
      (waveRow_selects_iff .wSetdiv 0x6#4 0x6#4 0x00#8 _ 0x00#8 _).2 ⟨rfl, BitVec.and_zero, BitVec.and_zero⟩⟩
  | wSetlen len =>
    cases henc
    exact ⟨⟨.wSetlen, 0x80000, 0xFFF00⟩, by simp [waveRows],
      (waveRow_selects_iff .wSetlen 0x8#4 0x8#4 0xFF#8 0#8 0x00#8 len).2 ⟨rfl, rfl, BitVec.and_zero⟩⟩
  | wSetmode m => cases henc; exact ⟨⟨.wSetmode, 0x70000, 0xFFFFE⟩, by simp [waveRows], by cases m <;> rfl⟩
  | wSeten b => cases henc; exact ⟨⟨.wSeten, 0x90000, 0xFFFFE⟩, by simp [waveRows], by cases b <;> rfl⟩
  | wSetlvl l => cases henc; exact ⟨⟨.wSetlvl, 0xA0000, 0xFFFFC⟩, by simp [waveRows], by cases l <;> rfl⟩
  | _ => cases henc

/-- Settles O5: port by port, the rows name what they select, leave no legal word out and are disjoint. -/
theorem opcodeTableRowsSelectTheDecodedForm : Obligations.OpcodeTableRowsSelectTheDecodedForm :=
  ⟨fun w => ⟨fun _ => busRow_names, fun _ => exists_busRow_of_legal, rows_disjoint busRows_disjoint w⟩,
    fun w => ⟨fun _ => bankRow_names, fun _ => exists_bankRow_of_legal, rows_disjoint bankRows_disjoint w⟩,
    fun w => ⟨fun _ => waveRow_names, fun _ => exists_waveRow_of_legal, rows_disjoint waveRows_disjoint w⟩, rfl⟩

/-! ### The reserved words -/

/-- The legal words of format B, in the spec's numbers. -/
theorem decodeBus_isLegal_iff (w : BitVec 26) : (∃ i, decodeCommand (.bus w) = .legal i) ↔
    (w.toNat / 2 ^ 24 = 0 ∧ w.toNat % 2 ^ 8 = 0) ∨ w.toNat / 2 ^ 24 = 1 ∨
      (2 ≤ w.toNat / 2 ^ 24 ∧ w.toNat % 2 ^ 24 = 0) := by
  have hw := w.isLt
  constructor
  · rintro ⟨i, h⟩
    obtain ⟨a, e, -⟩ | ⟨a, v, e, -⟩ | ⟨e, -⟩ | ⟨e, -⟩ := decodeBus_cases h
    · have hn : w.toNat = (0 * 2 ^ 16 + a.toNat) * 2 ^ 8 + 0 := e ▸ toNat_append3 0b00#2 a 0#8
      have := a.isLt
      omega
    · have hn : w.toNat = (1 * 2 ^ 16 + a.toNat) * 2 ^ 8 + v.toNat := e ▸ toNat_append3 0b01#2 a v
      have := a.isLt
      have := v.isLt
      omega
    · exact e ▸ .inr (.inr ⟨by decide, by decide⟩)
    · exact e ▸ .inr (.inr ⟨by decide, by decide⟩)
  · rintro (⟨hb, hd⟩ | hb | ⟨hb, hz⟩)
    · have e : 0b00#2 ++ w.extractLsb' 8 16 ++ 0#8 = w :=
        busWord_eq ((field_eq_iff ..).2 (show w.toNat / 2 ^ 24 % 2 ^ 2 = 0 by omega)) rfl
          ((field_eq_iff ..).2 (show w.toNat / 2 ^ 0 % 2 ^ 8 = 0 by omega))
      exact ⟨_, e ▸ decode_rdWord _⟩
    · have e : 0b01#2 ++ w.extractLsb' 8 16 ++ w.extractLsb' 0 8 = w :=
        busWord_eq (by rw [field_eq_iff, hb]; rfl) rfl rfl
      exact ⟨_, e ▸ decode_wrWord _ _⟩
    · obtain h | h : w.toNat = 0x2000000 ∨ w.toNat = 0x3000000 := by omega
      · obtain rfl : w = 0x2000000 := BitVec.eq_of_toNat_eq h
        exact ⟨.busStep, rfl⟩
      · obtain rfl : w = 0x3000000 := BitVec.eq_of_toNat_eq h
        exact ⟨.busReset, rfl⟩

/-- The legal words of format K, in the spec's numbers. -/
theorem decodeBank_isLegal_iff (w : BitVec 17) : (∃ i, decodeCommand (.bank w) = .legal i) ↔
    w.toNat / 2 ^ 16 = 1 ∨ w.toNat % 2 ^ 8 = 0 := by
  have hw := w.isLt
  constructor
  · rintro ⟨i, h⟩
    obtain ⟨off, e, -⟩ | ⟨off, v, e, -⟩ := decodeBank_cases h
    · have hn : w.toNat = (0 * 2 ^ 8 + off.toNat) * 2 ^ 8 + 0 := e ▸ toNat_append3 0#1 off 0#8
      omega
    · have hn : w.toNat = (1 * 2 ^ 8 + off.toNat) * 2 ^ 8 + v.toNat := e ▸ toNat_append3 1#1 off v
      have := off.isLt
      have := v.isLt
      omega
  · intro h
    by_cases hk : w.extractLsb' 16 1 = 0#1
    · have hk' : w.toNat / 2 ^ 16 % 2 ^ 1 = 0 := (field_eq_iff w 16 1 0#1).1 hk
      have e : 0#1 ++ w.extractLsb' 8 8 ++ 0#8 = w :=
        bankWord_eq hk rfl ((field_eq_iff ..).2 (show w.toNat / 2 ^ 0 % 2 ^ 8 = 0 by omega))
      exact ⟨_, e ▸ decode_bankGetWord _⟩
    · have e : 1#1 ++ w.extractLsb' 8 8 ++ w.extractLsb' 0 8 = w :=
        bankWord_eq ((BitVec.eq_zero_or_eq_one _).resolve_left hk) rfl rfl
      exact ⟨_, e ▸ decode_bankSetWord _ _⟩

/-- The legal words of format W are those of the rows' blocks. -/
theorem decodeWave_isLegal_iff (w : BitVec 20) : (∃ i, decodeCommand (.wave w) = .legal i) ↔
    ∃ b ∈ waveRows.map (fun r => (r.pattern.toNat, r.size)), b.1 ≤ w.toNat ∧ w.toNat < b.1 + b.2 := by
  constructor
  · rintro ⟨i, h⟩
    obtain ⟨r, hr, hsel⟩ := exists_waveRow_of_legal h
    exact ⟨_, List.mem_map_of_mem hr, ((waveRows_isBlock r hr).selects_iff w).1 hsel⟩
  · rintro ⟨b, hb, hin⟩
    obtain ⟨r, hr, rfl⟩ := List.mem_map.1 hb
    obtain ⟨i, h, -⟩ := waveRow_names hr (((waveRows_isBlock r hr).selects_iff w).2 hin)
    exact ⟨i, h⟩

/-- The blocks as numbers: the first word and the size. -/
theorem waveRows_blocks : waveRows.map (fun r => (r.pattern.toNat, r.size)) =
    [(0x00000, 0x1), (0x10000, 0x1), (0x20000, 0x100), (0x30000, 0x10000), (0x40000, 0x1), (0x50000, 0x1),
      (0x60000, 0x10000), (0x70000, 0x2), (0x80000, 0x100), (0x90000, 0x2), (0xA0000, 0x4)] := by decide

/-- Settles O4: on each port, the numbers that are not those of a legal word. -/
theorem reservedWordsAreExactlyTheListed : Obligations.ReservedWordsAreExactlyTheListed := by
  refine ⟨fun w => ?_, fun w => ?_, fun w => ?_⟩
  · rw [Decoded.illegal_iff, decodeBus_isLegal_iff]
    omega
  · have := w.isLt
    rw [Decoded.illegal_iff, decodeBank_isLegal_iff]
    omega
  · have := w.isLt
    rw [Decoded.illegal_iff, decodeWave_isLegal_iff, waveRows_blocks]
    simp only [List.exists_mem_cons_iff, List.not_mem_nil, false_and, exists_false]
    simp only [List.mem_cons, List.not_mem_nil, or_false]
    omega

/-- Settles O1: the words are those the spec writes out, and the operations are well-formed, so that O2 reads them
back. -/
theorem workedEncodings : Obligations.WorkedEncodings := by
  intro p hp
  have hword : p.1.WellFormed ∧ encode p.1 = p.2 := by revert p; decide
  obtain ⟨hwf, henc⟩ := hword
  exact ⟨henc, henc ▸ decodeOfEncodeIsTheOperation p.1 hwf⟩

end Sys2Proof

/-! SUPPORT and SETTLEMENT. The two halves of the block (spec/00_scope.md R7; spec/20_memory.md R64): the one lemma for
each half that says what an operation of it does in two states that agree on the half. Who is fatal, who reports, that
every operation answers once, that the halves do not see each other and that they commute all follow. -/

namespace Sys2Proof.Machine

/-! ### How an effect ends -/

/-- The outcome of an operation with the response `r`, as the tables of R177 and R178 have it. -/
def outcomeOf (i : Instr) (r : Response) : OpOutcome :=
  match raises i, reports i with
  | some f, _ => .fatal f
  | none, some d => .okDiag r d
  | none, none => .ok r

/-- The end of an operation whose latch is clear: the condition it meets is latched and its outcome answered. -/
def conclude (i : Instr) (r : Response) (u : State) : Result :=
  .next ((u.setFatal (raises i)).answer (outcomeOf i r))

/-- The dispatcher's half with its three stores written. -/
def State.setStores (s : State) (m b : Memory) (v : VState) : State := ((s.setRam m).setBank b).setVideo v

/-! ### The effect of an operation of each half -/

section Halves

variable {i : Instr} {s s' : State}

/-- In two states whose dispatcher's halves agree, a BUS or BANK operation writes the same stores and answers the
same. -/
theorem effect_dispatcher (hport : i.port ≠ .wave) (hlive : s.fatal = none) (hlive' : s'.fatal = none)
    (hsame : s.sameDispatcher s') :
    ∃ m b v r, effect i s = conclude i r (s.setStores m b v) ∧ effect i s' = conclude i r (s'.setStores m b v) := by
  obtain ⟨ram, bank, video, fatal, wave, rom, pending, outcomes⟩ := s
  obtain ⟨ram', bank', video', fatal', wave', rom', pending', outcomes'⟩ := s'
  obtain ⟨rfl, rfl, rfl, rfl⟩ := hsame
  cases hlive
  cases hlive'
  cases i with
  | wStep | wSample | wRamrd | wRamwr | wStart | wDiv | wSetdiv | wSetmode | wSetlen | wSeten | wSetlvl =>
    exact absurd rfl hport
  | rdUnmapped _ | wrUnmapped _ _ | wrLy _ => exact ⟨_, _, _, .none, rfl, rfl⟩
  | wrIo a v => exact ⟨ram', bank'.write (ioOffset a).toNat v, video', _, rfl, rfl⟩
  | bankSet off v => exact ⟨ram', bank'.write off.toNat v, video', _, rfl, rfl⟩
  | busStep => exact ⟨ram', bank', Config.vstep video', _, rfl, rfl⟩
  | busReset => exact ⟨[], [], Config.vreset, _, rfl, rfl⟩
  | _ => exact ⟨_, _, _, _, rfl, rfl⟩

/-- In two states whose Wave Channels agree, a WAVE operation writes the same channel and answers the same. -/
theorem effect_channel (hport : i.port = .wave) (hlive : s.fatal = none) (hlive' : s'.fatal = none)
    (hsame : s.wave = s'.wave) :
    ∃ w r, effect i s = conclude i r (s.setWave w) ∧ effect i s' = conclude i r (s'.setWave w) := by
  obtain ⟨ram, bank, video, fatal, wave, rom, pending, outcomes⟩ := s
  obtain ⟨ram', bank', video', fatal', wave', rom', pending', outcomes'⟩ := s'
  cases hsame
  cases hlive
  cases hlive'
  cases i with
  | wStep => exact ⟨wave.tick, _, rfl, rfl⟩
  | wStart => exact ⟨wave.setRunning true, _, rfl, rfl⟩
  | wSetmode m => exact ⟨wave.setMode m, _, rfl, rfl⟩
  | wSetlen len => exact ⟨wave.setRemaining (lengthBudget len), _, rfl, rfl⟩
  | wSeten b => exact ⟨wave.setEnabled b, _, rfl, rfl⟩
  | wSetlvl l => exact ⟨wave.setLevel l, _, rfl, rfl⟩
  | wSample | wDiv => exact ⟨wave, _, rfl, rfl⟩
  | wRamrd j =>
    by_cases hj : j.toNat < 32
    · simp only [effect, conclude, outcomeOf, raises, hj, dite_true, if_neg (Nat.not_le.2 hj)]
      exact ⟨wave, _, rfl, rfl⟩
    · simp only [effect, conclude, outcomeOf, raises, hj, dite_false, if_pos (Nat.not_lt.1 hj)]
      exact ⟨wave, .none, rfl, rfl⟩
  | wRamwr j a =>
    by_cases hj : j.toNat < 32
    · simp only [effect, conclude, outcomeOf, raises, hj, dite_true, if_neg (Nat.not_le.2 hj)]
      exact ⟨wave.setSample ⟨j.toNat, hj⟩ a, _, rfl, rfl⟩
    · simp only [effect, conclude, outcomeOf, raises, hj, dite_false, if_pos (Nat.not_lt.1 hj)]
      exact ⟨wave, .none, rfl, rfl⟩
  | wSetdiv v =>
    by_cases hv : v.toNat < 0x800
    · simp only [effect, conclude, outcomeOf, raises, hv, if_true, if_neg (Nat.not_le.2 hv)]
      exact ⟨wave.setDivider (v.extractLsb' 0 11), _, rfl, rfl⟩
    · simp only [effect, conclude, outcomeOf, raises, hv, if_false, if_pos (Nat.not_lt.1 hv)]
      exact ⟨wave, .none, rfl, rfl⟩
  | _ => cases hport

/-- Every effect is the end of its operation in a state that has answered nothing yet. -/
theorem effect_concludes (i : Instr) (hlive : s.fatal = none) :
    ∃ r u, effect i s = conclude i r u ∧ u.outcomes = s.outcomes ∧ u.pending = s.pending := by
  by_cases hport : i.port = .wave
  · obtain ⟨w, r, h, -⟩ := effect_channel hport hlive hlive rfl
    exact ⟨r, _, h, rfl, rfl⟩
  · obtain ⟨m, b, v, r, h, -⟩ := effect_dispatcher hport hlive hlive ⟨rfl, rfl, rfl, rfl⟩
    exact ⟨r, _, h, rfl, rfl⟩

end Halves

/-! ### Who is fatal and who reports -/

section Tables

variable {i : Instr} {s t : State}

/-- No operation that is fatal reports a diagnostic. -/
theorem reports_of_raises {f : Fatal} (h : raises i = some f) : reports i = none := by
  cases i with
  | wrRom | rdIo | wrIo => cases h
  | _ => rfl

theorem outcomeOf_eq_fatal (i : Instr) (r : Response) (f : Fatal) :
    outcomeOf i r = .fatal f ↔ raises i = some f := by
  unfold outcomeOf
  cases raises i with
  | some g => simp
  | none => cases reports i <;> simp

theorem outcomeOf_eq_okDiag (i : Instr) (r : Response) (d : Diag) :
    (∃ q, outcomeOf i r = .okDiag q d) ↔ reports i = some d := by
  unfold outcomeOf
  cases hf : raises i with
  | some f => simp [reports_of_raises hf]
  | none => cases reports i <;> simp

/-- With the latch clear an operation leaves in the latch what the table of R177 says and answers its outcome. -/
theorem exec_concludes (hlive : s.fatal = none) (h : exec i s = .next t) :
    t.fatal = raises i ∧ ∃ r, t.lastOutcome = some (outcomeOf i r) := by
  obtain ⟨r, u, he, -, -⟩ := effect_concludes i hlive
  rw [exec_live i hlive, he] at h
  cases h
  exact ⟨rfl, r, rfl⟩

/-- Every operation has one outcome, in every state. -/
theorem exec_answers (i : Instr) (s : State) : ∃ t o, exec i s = .next t ∧ s.answered t o := by
  cases hf : s.fatal with
  | some f => exact ⟨_, _, exec_yieldsToLatch i s f hf, rfl, rfl⟩
  | none =>
    obtain ⟨r, u, he, hout, hpend⟩ := effect_concludes i hf
    exact ⟨_, outcomeOf i r, (exec_live i hf).trans he, congrArg _ hout, hpend⟩

end Tables

/-- Settles O42: the latch and the outcome are those of the table. -/
theorem fatalConditionsAreTheTabulated : Obligations.FatalConditionsAreTheTabulated := by
  intro i s t hlive h
  obtain ⟨hlatch, r, hout⟩ := exec_concludes hlive h
  exact ⟨hlatch, fun f => by rw [hout, Option.some.injEq, outcomeOf_eq_fatal]⟩

/-- Settles O43: the outcome is that of the table. -/
theorem diagnosticsAreTheTabulated : Obligations.DiagnosticsAreTheTabulated := by
  intro i s t hlive h d
  obtain ⟨-, r, hout⟩ := exec_concludes hlive h
  simp only [hout, Option.some.injEq, outcomeOf_eq_okDiag]

/-! ### The halves apart -/

section Apart

variable {i : Instr} {s s' t t' : State}

/-- A WAVE operation leaves the dispatcher's half. -/
theorem exec_sameDispatcher_of_wave (hport : i.port = .wave) (h : exec i s = .next t) : s.sameDispatcher t := by
  obtain ⟨f, -, rfl⟩ | ⟨hlive, h⟩ := exec_cases h
  · exact ⟨rfl, rfl, rfl, rfl⟩
  · obtain ⟨w, r, he, -⟩ := effect_channel hport hlive hlive rfl
    cases h.symm.trans he
    exact ⟨rfl, rfl, rfl, rfl⟩

/-- A BUS or BANK operation leaves the channel. -/
theorem exec_wave_of_dispatcher (hport : i.port ≠ .wave) (h : exec i s = .next t) : t.wave = s.wave := by
  obtain ⟨f, -, rfl⟩ | ⟨hlive, h⟩ := exec_cases h
  · rfl
  · obtain ⟨m, b, v, r, he, -⟩ := effect_dispatcher hport hlive hlive ⟨rfl, rfl, rfl, rfl⟩
    cases h.symm.trans he
    rfl

/-- What a WAVE operation does to the channel and answers depends on the channel and the latch only. -/
theorem exec_channel_congr (hport : i.port = .wave) (hf : s.fatal = s'.fatal) (hsame : s.wave = s'.wave)
    (h : exec i s = .next t) (h' : exec i s' = .next t') :
    t.wave = t'.wave ∧ t.fatal = t'.fatal ∧ t.lastOutcome = t'.lastOutcome := by
  cases hs : s.fatal with
  | some f =>
    cases h.symm.trans (exec_yieldsToLatch i s f hs)
    cases h'.symm.trans (exec_yieldsToLatch i s' f (hf ▸ hs))
    exact ⟨hsame, hf, rfl⟩
  | none =>
    have hs' : s'.fatal = none := hf ▸ hs
    obtain ⟨w, r, he, he'⟩ := effect_channel hport hs hs' hsame
    cases h.symm.trans ((exec_live i hs).trans he)
    cases h'.symm.trans ((exec_live i hs').trans he')
    exact ⟨rfl, rfl, rfl⟩

/-- What a BUS or BANK operation does to the stores and answers depends on the dispatcher's half and the latch
only. -/
theorem exec_dispatcher_congr (hport : i.port ≠ .wave) (hf : s.fatal = s'.fatal) (hsame : s.sameDispatcher s')
    (h : exec i s = .next t) (h' : exec i s' = .next t') :
    t.sameDispatcher t' ∧ t.fatal = t'.fatal ∧ t.lastOutcome = t'.lastOutcome := by
  cases hs : s.fatal with
  | some f =>
    cases h.symm.trans (exec_yieldsToLatch i s f hs)
    cases h'.symm.trans (exec_yieldsToLatch i s' f (hf ▸ hs))
    exact ⟨hsame, hf, rfl⟩
  | none =>
    have hs' : s'.fatal = none := hf ▸ hs
    have ⟨_, _, _, hrom⟩ := hsame
    obtain ⟨m, b, v, r, he, he'⟩ := effect_dispatcher hport hs hs' hsame
    cases h.symm.trans ((exec_live i hs).trans he)
    cases h'.symm.trans ((exec_live i hs').trans he')
    exact ⟨⟨rfl, rfl, rfl, hrom⟩, rfl, rfl⟩

/-- An operation that leaves the latch clear has found it clear. -/
theorem live_of_exec_live (h : exec i s = .next t) (ht : t.fatal = none) : s.fatal = none := by
  obtain ⟨f, hf, rfl⟩ | ⟨hlive, -⟩ := exec_cases h
  · exact ht
  · exact hlive

end Apart

/-- Settles O47: the frame and the two-state law of each half. -/
theorem halvesDoNotSeeEachOther : Obligations.HalvesDoNotSeeEachOther := fun _ _ _ _ _ hf h h' =>
  ⟨fun hport => ⟨exec_sameDispatcher_of_wave hport h, fun hsame => exec_channel_congr hport hf hsame h h'⟩,
    fun hport => ⟨exec_wave_of_dispatcher hport h, fun hsame => exec_dispatcher_congr hport hf hsame h h'⟩⟩

/-- Settles O48: each operation finds its own half, and the latch, as the other has not left them changed, so that it
does there what it does alone. -/
theorem halvesCommute : Obligations.HalvesCommute := by
  intro i j s si sij sj sji hi hj hsi hsij hsj hsji hlive_i hlive_j
  have hlive := live_of_exec_live hsi hlive_i
  have hwi : si.wave = s.wave := exec_wave_of_dispatcher hi hsi
  have hdj : s.sameDispatcher sj := exec_sameDispatcher_of_wave hj hsj
  obtain ⟨hw, hf, ho⟩ := exec_channel_congr hj (hlive_i.trans hlive.symm) hwi hsij hsj
  obtain ⟨hd, hf', ho'⟩ := exec_dispatcher_congr hi (hlive.trans hlive_j.symm) hdj hsi hsji
  obtain ⟨hram, hbank, hvideo, hrom⟩ := exec_sameDispatcher_of_wave hj hsij
  obtain ⟨hram', hbank', hvideo', hrom'⟩ := hd
  refine ⟨⟨⟨⟨hram'.trans hram.symm, hbank'.trans hbank.symm, hvideo'.trans hvideo.symm, hrom'.trans hrom.symm⟩,
    ?_⟩, ?_⟩, ho, ho'.symm⟩
  · rw [exec_wave_of_dispatcher hi hsji, hw]
  · rw [← hf', hlive_i, hf, hlive_j]

end Sys2Proof.Machine

/-! SUPPORT and SETTLEMENT. The step (spec/00_scope.md R4; spec/30_encoding.md R83), the one inversion lemma
`exec_storeWrite` that says what any operation does to RAM and the bank, and from it and `exec_waveWrite` the invariant
(spec/10_state.md R14 to R16, R31) and the frame of memory. -/

namespace Sys2Proof.Machine

/-! ### The step -/

section Step

variable {s t : State} {c : Command} {rest : List Command}

theorem step_idle (hp : s.pending = []) : step s = .next s := by
  simp [step, State.takeCommand, hp, idle]

theorem step_legal {i : Instr} (hp : s.pending = c :: rest) (hd : decodeCommand c = .legal i) :
    step s = exec i (s.setPending rest) := by
  obtain ⟨j, hj, hstep⟩ | ⟨⟨r, hr⟩, -⟩ := step_cases hp
  · cases hd.symm.trans hj
    exact hstep
  · cases hd.symm.trans hr

theorem step_illegal {r : Illegal} (hp : s.pending = c :: rest) (hd : decodeCommand c = .illegal r) :
    step s = execIllegal c (s.setPending rest) := by
  obtain ⟨j, hj, -⟩ | ⟨-, hstep⟩ := step_cases hp
  · cases hd.symm.trans hj
  · exact hstep

/-- A reserved word in any state: a next state in which nothing but the latch is changed. -/
theorem execIllegal_frame (c : Command) (s : State) : ∃ t, execIllegal c s = .next t ∧ s.sameButLatch t := by
  cases hf : s.fatal with
  | some f => exact ⟨_, unlessFatal_latched _ hf, ⟨rfl, rfl, rfl, rfl⟩, rfl⟩
  | none => exact ⟨_, unlessFatal_live _ hf, ⟨rfl, rfl, rfl, rfl⟩, rfl⟩

/-- Everything a step can do to the block: nothing, or what a well-formed operation does. -/
theorem step_next_cases (h : step s = .next t) :
    s.sameButLatch t ∨ ∃ (i : Instr) (rest : List Command), i.WellFormed ∧ exec i (s.setPending rest) = .next t := by
  cases hp : s.pending with
  | nil =>
    cases h.symm.trans (step_idle hp)
    exact .inl ⟨⟨rfl, rfl, rfl, rfl⟩, rfl⟩
  | cons c rest =>
    obtain ⟨i, hd, hstep⟩ | ⟨-, hstep⟩ := step_cases hp
    · have ⟨hwf, _⟩ := legalWordEncodesBack c i hd
      exact .inr ⟨i, rest, hwf, hstep ▸ h⟩
    · obtain ⟨u, hu, hsame⟩ := execIllegal_frame c (s.setPending rest)
      cases h.symm.trans (hstep.trans hu)
      exact .inl hsame

end Step

/-- Settles O7. -/
theorem stepRunsTheDecodedOperation : Obligations.StepRunsTheDecodedOperation := fun _ _ _ _ => step_legal

/-- Settles O8: with the latch clear a reserved word raises its condition. -/
theorem stepOnReservedWordIsFatal : Obligations.StepOnReservedWordIsFatal := fun _ _ _ _ hlive hp hd =>
  ⟨_, (step_illegal hp hd).trans (unlessFatal_live _ hlive), rfl, rfl, rfl, rfl, ⟨rfl, rfl, rfl, rfl⟩, rfl⟩

/-- Settles O9. -/
theorem stepWithNothingPendingChangesNothing : Obligations.StepWithNothingPendingChangesNothing :=
  fun _ => step_idle

/-- Settles O40: an operation and a reserved word check the latch first. -/
theorem latchedOperationsChangeNothing : Obligations.LatchedOperationsChangeNothing := by
  refine fun s f hf => ⟨fun i => exec_yieldsToLatch i s f hf, fun c rest hp => ?_⟩
  obtain ⟨i, -, hstep⟩ | ⟨-, hstep⟩ := step_cases hp
  · exact hstep.trans (exec_yieldsToLatch i (s.setPending rest) f hf)
  · exact hstep.trans (unlessFatal_latched (s := s.setPending rest) _ hf)

/-- Settles O44: an operation answers by `exec_answers`, and a step is idle, an operation or a reserved word. -/
theorem everyOperationAnswersOnce : Obligations.EveryOperationAnswersOnce := by
  refine ⟨exec_answers, fun s => ?_⟩
  cases hp : s.pending with
  | nil => exact ⟨s, step_idle hp⟩
  | cons c rest =>
    obtain ⟨i, -, hstep⟩ | ⟨-, hstep⟩ := step_cases hp
    · obtain ⟨t, -, ht, -⟩ := exec_answers i (s.setPending rest)
      exact ⟨t, hstep.trans ht⟩
    · obtain ⟨t, ht, -⟩ := execIllegal_frame c (s.setPending rest)
      exact ⟨t, hstep.trans ht⟩

/-- Settles O53: neither an operation nor a reserved word writes the image. -/
theorem noStepWritesTheImage : Obligations.NoStepWritesTheImage := by
  intro s t h
  have hrom : t.rom = s.rom := by
    obtain ⟨⟨-, -, -, hrom⟩, -⟩ | ⟨i, rest, -, hi⟩ := step_next_cases h
    · exact hrom
    · exact (exec_rom hi).trans (s.setPending_rom rest)
  exact ⟨hrom, State.romByte_congr hrom⟩

/-! ### What an operation does to the stores -/

/-- `StoreWrite m b i m' b'`: the operation `i` may take RAM from `m` to `m'` and the bank from `b` to `b'`. -/
inductive StoreWrite (m b : Memory) : Instr → Memory → Memory → Prop
  /-- Nothing is stored: the operation is latched, fatal, or no store. -/
  | kept (i : Instr) : StoreWrite m b i m b
  | ram (a : Addr) (v : Byte) : StoreWrite m b (.wrRam a v) (m.write (ramOffset a) v) b
  | io (a : Addr) (v : Byte) : StoreWrite m b (.wrIo a v) m (b.write (ioOffset a).toNat v)
  | bank (off v : Byte) : StoreWrite m b (.bankSet off v) m (b.write off.toNat v)
  | reset : StoreWrite m b .busReset [] []

theorem effect_storeWrite {i : Instr} {s t : State} (h : effect i s = .next t) :
    StoreWrite s.ram s.bank i t.ram t.bank := by
  cases i with
  | wrRam a v => cases h; exact .ram a v
  | wrIo a v => cases h; exact .io a v
  | bankSet off v => cases h; exact .bank off v
  | busReset => cases h; exact .reset
  | wRamrd _ | wRamwr _ _ | wSetdiv _ =>
    simp only [effect] at h
    split at h <;> cases h <;> exact .kept _
  | _ => cases h; exact .kept _

/-- Everything `exec` can do to the stores. -/
theorem exec_storeWrite {i : Instr} {s t : State} (h : exec i s = .next t) :
    StoreWrite s.ram s.bank i t.ram t.bank := by
  obtain ⟨f, -, rfl⟩ | ⟨-, he⟩ := exec_cases h
  · exact .kept i
  · exact effect_storeWrite he

section Stores

variable {m b m' b' : Memory} {i : Instr} (h : StoreWrite m b i m' b')
include h

/-- The stores of a well-formed operation are inside the stores' sizes, so their canonical form is kept. -/
theorem StoreWrite.wf (hwf : i.WellFormed) (hm : m.wf 0x6000) (hb : b.wf 0x100) :
    m'.wf 0x6000 ∧ b'.wf 0x100 := by
  cases h with
  | kept => exact ⟨hm, hb⟩
  | ram a v =>
    obtain ⟨-, hhi⟩ : InRam a := of_decide_eq_true hwf
    exact ⟨Memory.wf_write hm (Nat.lt_succ_of_le (ramOffset_le hhi)) v, hb⟩
  | io a v => exact ⟨hm, Memory.wf_write hb (ioOffset a).isLt v⟩
  | bank off v => exact ⟨hm, Memory.wf_write hb off.isLt v⟩
  | reset => exact ⟨Memory.wf_nil _, Memory.wf_nil _⟩

/-- RAM cells other than the one stored to. -/
theorem StoreWrite.ram_other (hreset : i ≠ .busReset) {o : Nat} (ho : storesRam i ≠ some o) :
    m'.read o = m.read o := by
  cases h with
  | ram a v => exact Memory.read_write_other m v fun e => ho (congrArg some e.symm)
  | reset => exact absurd rfl hreset
  | _ => rfl

/-- Bank cells other than the one stored to. -/
theorem StoreWrite.bank_other (hreset : i ≠ .busReset) {off : Byte} (ho : storesBank i ≠ some off) :
    b'.read off.toNat = b.read off.toNat := by
  have other {k : Byte} (v : Byte) (hk : k ≠ off) : (b.write k.toNat v).read off.toNat = b.read off.toNat :=
    Memory.read_write_other b v fun e => hk (BitVec.eq_of_toNat_eq e.symm)
  cases h with
  | io a v => exact other v fun e => ho (congrArg some e)
  | bank k v => exact other v fun e => ho (congrArg some e)
  | reset => exact absurd rfl hreset
  | _ => rfl

end Stores

/-- Settles O46: by what an operation does to the image and to the stores. -/
theorem storesChangeOnlyTheirByte : Obligations.StoresChangeOnlyTheirByte := fun _ _ _ h =>
  ⟨State.romByte_congr (exec_rom h), fun hreset =>
    ⟨fun _ => (exec_storeWrite h).ram_other hreset, fun _ => (exec_storeWrite h).bank_other hreset⟩⟩

/-! ### The invariant -/

/-- Every row of R32 keeps the bounds of R31. -/
theorem WaveWrite.inv {w v : Wave} {i : Instr} (h : WaveWrite w i v) (hinv : w.Inv) : v.Inv := by
  have ⟨hdiv, hidx, hcnt, hrem⟩ := hinv
  have hd := v.divider.isLt
  have hi := v.index.isLt
  refine ⟨by omega, by omega, ?_, ?_⟩
  · by_cases hne : v.counter = w.counter
    · rwa [hne]
    · obtain ⟨-, hv⟩ := h.counter_changed hne
      split at hv <;> omega
  · cases h with
    | setlen len =>
      have := lengthBudget_toNat len
      show (lengthBudget len).toNat ≤ 0x400000
      omega
    | step =>
      by_cases hne : w.tick.remaining = w.remaining
      · rwa [hne]
      · have := w.tick_remaining_changed hne
        omega
    | _ => exact hrem

/-- Settles O39: a well-formed operation keeps the invariant part by part, and anything else a step does leaves the
block but for the latch. -/
theorem everyStepKeepsTheInvariant : Obligations.EveryStepKeepsTheInvariant := by
  intro s t ⟨hram, hbank, himage, hwave⟩ h
  obtain ⟨hrom, -⟩ := noStepWritesTheImage s t h
  obtain ⟨⟨hr, hb, -, -⟩, hw⟩ | ⟨i, rest, hwf, hi⟩ := step_next_cases h
  · exact ⟨hr ▸ hram, hb ▸ hbank, by rwa [State.romListed, hrom], hw ▸ hwave⟩
  · obtain ⟨hram', hbank'⟩ := (exec_storeWrite hi).wf hwf hram hbank
    exact ⟨hram', hbank', by rwa [State.romListed, hrom], (exec_waveWrite hi).inv hwave⟩

/-- Settles O38: the stores list nothing, nor does the image, and the channel's counts are zero. -/
theorem powerOnStateMeetsTheInvariant : Obligations.PowerOnStateMeetsTheInvariant := by
  obtain ⟨hram, hbank⟩ := State.reset_stores_wf
  exact ⟨hram, hbank, ⟨.nil, nofun⟩, by decide⟩

/-- Settles O10: every field as it stands in the record. -/
theorem powerOnState : Obligations.PowerOnState :=
  ⟨fun _ => rfl, fun _ => rfl, fun _ => rfl, rfl, rfl, rfl, rfl, rfl, rfl, rfl, rfl, rfl,
    fun k => Vector.getElem_replicate k.isLt, rfl⟩

end Sys2Proof.Machine

/-! SUPPORT and SETTLEMENT. What the agents see of the dispatcher (spec/20_memory.md R59, R63;
spec/41_io_register_bank.md R127, R132): a bus read after a bus write, the current line, `BANK.GET`, and the cell 0x44
that the line shadows on the bus. -/

namespace Sys2Proof.Machine

/-! ### Reads -/

/-- Settles O49: the write leaves the image, or has stored the cell that the read answers. -/
theorem readAfterWrite : Obligations.ReadAfterWrite := by
  intro s a v hlive hrange hne
  obtain ha | ha | ha : InRom a ∨ InRam a ∨ InIo a := by
    simp only [InRom, InRam, InIo, hne, ne_eq, not_false_eq_true, and_true]
    omega
  · refine ⟨_, memWrite_rom v hlive ha, fun _ => memRead_rom (s := s.answer _) hlive ha, fun h => ?_, fun h => ?_⟩
    all_goals omega
  · refine ⟨_, memWrite_ram v hlive ha, fun h => by omega, fun _ => ?_, fun h => by omega⟩
    rw [memRead_ram (by simpa using hlive) ha, State.answer_ramCell, State.ramCell_setRamCell_self, done]
  · refine ⟨_, memWrite_io v hlive ha, fun h => by omega, fun h => by omega, fun _ => ?_⟩
    rw [memRead_io (by simpa using hlive) ha, State.answer_bankCell, State.bankCell_setBankCell_self, doneDiag]

/-- Settles O54: both reads answer the line of the video subsystem, which the operation leaves. -/
theorem lineMovesOnlyAtStepAndReset : Obligations.LineMovesOnlyAtStepAndReset := by
  intro i s t hstep hreset h
  have hvideo := exec_video h hstep hreset
  refine ⟨hvideo, fun u u' hs ht hu hu' => ?_⟩
  rw [memRead_line hs] at hu
  rw [memRead_line ht, hvideo] at hu'
  rw [done_cases hu, done_cases hu', State.lastOutcome_answer, State.lastOutcome_answer]

/-- Settles O25: the effect answers the cell. -/
theorem bankGetAnswersTheCell : Obligations.BankGetAnswersTheCell := fun off =>
  ⟨decode_bankGetWord off, exec_yieldsToLatch _, fun _ hlive => exec_bankGet_live off hlive⟩

/-! ### The cell the line shadows -/

/-- A write to two stores that read alike at an offset. -/
theorem Memory.read_write_congr {m m' : Memory} {k : Nat} (hk : m.read k = m'.read k) (a : Nat) (v : Byte) :
    (m.write a v).read k = (m'.write a v).read k := by
  by_cases h : k = a
  · subst h
    rw [Memory.read_write_self, Memory.read_write_self]
  · rw [Memory.read_write_other m v h, Memory.read_write_other m' v h, hk]

/-- A later bank is all that is left of an earlier one, whatever has been answered. -/
theorem State.setBank_setBank (s : State) (m n : Memory) : (s.setBank m).setBank n = s.setBank n := rfl

theorem State.answer_setBank (s : State) (o : OpOutcome) (m : Memory) :
    (s.answer o).setBank m = (s.setBank m).answer o := rfl

section Shadowed

variable {i : Instr} {s t : State}

/-- With another byte in cell 0x44 a BUS operation ends in the same state but for the bank, and there in the same
bank but for cell 0x44. -/
theorem effect_hidesLineCell (v : Byte) (hwf : i.WellFormed) (hport : i.port = .bus) (h : effect i s = .next t) :
    ∃ b, (∀ off, off ≠ 0x44#8 → (t.setBank b).bankCell off = t.bankCell off) ∧
      effect i (s.setBankCell 0x44#8 v) = .next (t.setBank b) := by
  have hother (off : Byte) : off ≠ 0x44#8 → (s.setBankCell 0x44#8 v).bankCell off = s.bankCell off :=
    s.bankCell_setBankCell_other v
  cases i with
  | rdIo a =>
    have ha : InIo a := of_decide_eq_true hwf
    cases h
    exact ⟨_, hother, by rw [effect, hother _ ha.ioOffset_ne]; rfl⟩
  | wrIo a x =>
    cases h
    exact ⟨(s.setBankCell 0x44#8 v).bank.write (ioOffset a).toNat x,
      fun off hoff => Memory.read_write_congr (hother off hoff) (ioOffset a).toNat x,
      by simp only [effect, doneDiag, State.setBankCell, State.setBank_setBank, State.answer_setBank,
        State.setBank_bank]⟩
  | busReset => cases h; exact ⟨[], fun _ _ => rfl, rfl⟩
  | bankGet | bankSet | wStep | wSample | wRamrd | wRamwr | wStart | wDiv | wSetdiv | wSetmode | wSetlen | wSeten
  | wSetlvl => cases hport
  | _ => cases h; exact ⟨_, hother, rfl⟩

/-- As `effect_hidesLineCell`, of an operation in any state. -/
theorem exec_hidesLineCell (v : Byte) (hwf : i.WellFormed) (hport : i.port = .bus) (h : exec i s = .next t) :
    ∃ b, (∀ off, off ≠ 0x44#8 → (t.setBank b).bankCell off = t.bankCell off) ∧
      exec i (s.setBankCell 0x44#8 v) = .next (t.setBank b) := by
  obtain ⟨f, hf, rfl⟩ | ⟨hlive, he⟩ := exec_cases h
  · exact ⟨_, fun off => s.bankCell_setBankCell_other v, exec_yieldsToLatch i (s.setBankCell 0x44#8 v) f hf⟩
  · obtain ⟨b, hb, he'⟩ := effect_hidesLineCell v hwf hport he
    exact ⟨b, hb, (exec_live (s := s.setBankCell 0x44#8 v) i hlive).trans he'⟩

end Shadowed

/-- Settles O52: by `exec_hidesLineCell` only the bank differs, and only in cell 0x44. -/
theorem lineShadowedCellIsInvisibleToTheBus : Obligations.LineShadowedCellIsInvisibleToTheBus := by
  intro i s t t' v hwf hport h h'
  obtain ⟨b, hb, he⟩ := exec_hidesLineCell v hwf hport h
  cases h'.symm.trans he
  exact ⟨rfl, rfl, rfl, rfl, rfl, rfl, hb⟩

end Sys2Proof.Machine

/-! SUPPORT and SETTLEMENT. The Wave Channel (spec/42_wave_channel.md R143, R144, R146, R151 to R153): the table and the
divider as `W.RAMRD`, `W.RAMWR` and `W.DIV` have them, a divider that waits for the reload, and the period of a run in
Continuous mode. -/

namespace Sys2Proof.Machine

/-! ### The table, the start and the divider -/

section Table

variable {s : State} {j : Byte}

theorem exec_wRamrd_live (hlive : s.fatal = none) (hj : j.toNat < 32) :
    exec (.wRamrd j) s = done (.byte (s.wave.sampleAt ⟨j.toNat, hj⟩)) s := by
  rw [exec_live _ hlive, effect, dif_pos hj]

theorem exec_wRamwr_live (a : Byte) (hlive : s.fatal = none) (hj : j.toNat < 32) :
    exec (.wRamwr j a) s = done .none (s.setWave (s.wave.setSample ⟨j.toNat, hj⟩ a)) := by
  rw [exec_live _ hlive, effect, dif_pos hj]

theorem Wave.sampleAt_setSample_self (w : Wave) (k : Fin 32) (a : Byte) : (w.setSample k a).sampleAt k = a :=
  Vector.getElem_set_self k.isLt

end Table

/-- Settles O29: below 32 the effect answers the entry, and at 32 or more the operation takes `exec_raises`. -/
theorem wRamrdAnswersTheEntry : Obligations.WRamrdAnswersTheEntry := fun j =>
  ⟨decode_wRamrdWord j, exec_yieldsToLatch _, fun _ hlive =>
    ⟨exec_wRamrd_live hlive, fun hj => ⟨rfl, exec_raises hlive (dif_neg (Nat.not_lt.2 hj))⟩⟩⟩

/-- Settles O30: below 32 the effect writes one entry, and at 32 or more the operation takes `exec_raises`. -/
theorem wRamwrStoresTheEntry : Obligations.WRamwrStoresTheEntry := by
  refine fun j a => ⟨decode_wRamwrWord j a, exec_yieldsToLatch _, fun s hlive => ⟨fun hj => ?_, fun hj => ?_⟩⟩
  · have hself := s.wave.sampleAt_setSample_self ⟨j.toNat, hj⟩ a
    refine ⟨_, exec_wRamwr_live a hlive hj, ⟨rfl, rfl⟩, rfl, hself, fun k hk => ?_, ⟨rfl, rfl, rfl, rfl⟩, hlive, ?_⟩
    · exact s.wave.sampleAt_setSample_other a fun e => hk (congrArg Fin.val e.symm)
    · rw [exec_wRamrd_live (by simpa using hlive) hj, State.answer_wave, State.setWave_wave, hself, done]
  · exact exec_raises hlive (dif_neg (Nat.not_lt.2 hj))

/-- Settles O32: the effect writes `running`. -/
theorem wStartSetsRunningOnly : Obligations.WStartSetsRunningOnly :=
  ⟨rfl, exec_yieldsToLatch _, fun _ hlive => exec_writesWave hlive rfl⟩

/-- Settles O37: a divider of 11 bits fits the 16 of the response. -/
theorem wDivAnswersTheDivider : Obligations.WDivAnswersTheDivider := by
  refine ⟨rfl, exec_yieldsToLatch _, fun s hlive => ?_⟩
  have hd := s.wave.divider.isLt
  have hres : (dividerResult s.wave.divider).toNat = s.wave.divider.toNat :=
    BitVec.toNat_setWidth_of_le (by decide)
  exact ⟨dividerResult s.wave.divider, exec_live _ hlive, hres, by omega⟩

/-! ### A divider waits for the reload -/

/-- Away from a countdown of 0 clauses (c) and (d) do not look at the divider. -/
theorem Wave.reload_countDown_setDivider {w : Wave} (d : BitVec 11) (h : w.counter ≠ 0#13) :
    (w.setDivider d).reload.countDown = w.reload.countDown.setDivider d := by
  rw [w.reload_nonzero h, (w.setDivider d).reload_nonzero h]
  rfl

/-- Away from a countdown of 0 a tick does not look at the divider. -/
theorem Wave.tick_setDivider {w : Wave} (d : BitVec 11) (h : w.counter ≠ 0#13) :
    (w.setDivider d).tick = w.tick.setDivider d := by
  cases hr : w.running with
  | false => rw [w.tick_stopped hr, (w.setDivider d).tick_stopped hr]
  | true =>
    cases hm : w.mode with
    | continuous =>
      rw [w.tick_continuous hr hm, (w.setDivider d).tick_continuous hr hm, Wave.reload_countDown_setDivider d h]
    | counter =>
      by_cases h0 : w.remaining = 0#23
      · rw [w.tick_exhausted hr hm h0, (w.setDivider d).tick_exhausted hr hm h0]
        rfl
      · rw [w.tick_counter hr hm h0, (w.setDivider d).tick_counter hr hm h0]
        exact Wave.reload_countDown_setDivider (w := w.setRemaining (w.remaining - 1#23)) d h

/-- Settles O57: the two orders write the same channel, by `tick_setDivider`. -/
theorem dividerChangeWaitsForTheReload : Obligations.DividerChangeWaitsForTheReload := by
  intro s v hlive hv h
  have setdiv {u : State} (hu : u.fatal = none) :
      exec (.wSetdiv v) u = done .none (u.setWave (u.wave.setDivider (v.extractLsb' 0 11))) :=
    (exec_live _ hu).trans (if_pos hv)
  have step {u : State} (hu : u.fatal = none) : exec .wStep u = done .none (u.setWave u.wave.tick) :=
    exec_live _ hu
  have live_after (w : Wave) : ((s.setWave w).answer (.ok .none)).fatal = none := hlive
  refine ⟨_, _, _, setdiv hlive, step (live_after _), step hlive, (setdiv (live_after _)).trans ?_⟩
  simp only [State.answer_wave, State.setWave_wave, Wave.tick_setDivider _ h]
  rfl

/-! ### The period of a Continuous run -/

/-- The ticks between two reloads (R138). -/
def period (d : BitVec 11) : Nat := 2 * (0x800 - d.toNat)

theorem period_pos (d : BitVec 11) : 0 < period d := by
  have := d.isLt
  unfold period; omega

/-- `s.Cycling d i n`: the channel runs in `Continuous` mode with the divider `d`, `n` ticks after it stood at the
phase `i` with a countdown of 0. The countdown is what the `k` periods begun since are longer than `n`. -/
structure State.Cycling (s : State) (d : BitVec 11) (i n : Nat) : Prop where
  live : s.fatal = none
  running : s.wave.running = true
  mode : s.wave.mode = .continuous
  divider : s.wave.divider = d
  below : s.wave.counter.toNat < period d
  turns : ∃ k, s.wave.counter.toNat + n = k * period d ∧ s.wave.index.toNat = (i + k) % 32

section Period

variable {s : State} {d : BitVec 11} {i n : Nat}

/-- A tick takes one from the countdown, or at 0 begins the next period and advances the phase. -/
theorem State.Cycling.step (h : s.Cycling d i n) : ∃ t, exec .wStep s = .next t ∧ t.Cycling d i (n + 1) := by
  obtain ⟨t, ht, -, hw, -, hlive⟩ := exec_wStep_live h.live
  rw [s.wave.tick_continuous h.running h.mode] at hw
  have hcount := s.wave.reload_countDown_counter
  obtain ⟨k, hk, hidx⟩ := h.turns
  have hbelow := h.below
  have hpos := period_pos d
  rw [h.divider] at hcount
  refine ⟨t, ht, hlive, by simp [hw, h.running], by simp [hw, h.mode], by simp [hw, h.divider], ?_, ?_⟩
  · rw [hw]
    unfold period at *
    split at hcount <;> omega
  · rw [hw]
    by_cases h0 : s.wave.counter = 0#13
    · rw [if_pos h0] at hcount
      have hz : s.wave.counter.toNat = 0 := by rw [h0]; rfl
      refine ⟨k + 1, ?_, ?_⟩
      · rw [Nat.succ_mul]; unfold period at *; omega
      · rw [s.wave.reload_countDown_index_zero h0, hidx]; omega
    · rw [if_neg h0] at hcount
      exact ⟨k, by omega, by rw [s.wave.reload_countDown_index_nonzero h0, hidx]⟩

theorem State.Cycling.steps {m : Nat} (h : s.Cycling d i n) :
    ∃ u, execN m .wStep s = .next u ∧ u.Cycling d i (n + m) := by
  induction m generalizing s n with
  | zero => exact ⟨s, rfl, h⟩
  | succ m ih =>
    obtain ⟨t, ht, hcyc⟩ := h.step
    rw [execN_succ m ht, Nat.add_comm m 1, ← Nat.add_assoc]
    exact ih hcyc

end Period

/-- A number that `k` periods exceed by less than one period: the periods begun, and what is left of the last. -/
theorem periods_begun {P k c n : Nat} (hn : 1 ≤ n) (hc : c < P) (h : c + n = k * P) :
    k = (n - 1) / P + 1 ∧ c = (P - n % P) % P := by
  obtain ⟨q, rfl⟩ : ∃ q, k = q + 1 := ⟨k - 1, by cases k <;> omega⟩
  have hn' : n = P * q + (P - c) := by rw [Nat.succ_mul, Nat.mul_comm] at h; omega
  have hdiv : (n - 1) / P = q := by
    rw [hn', Nat.add_sub_assoc (by omega), Nat.mul_add_div (by omega), Nat.div_eq_of_lt (by omega), Nat.add_zero]
  refine ⟨by rw [hdiv], ?_⟩
  rw [hn', Nat.mul_add_mod]
  by_cases hc0 : c = 0
  · simp [hc0]
  · rw [Nat.mod_eq_of_lt (by omega : P - c < P), Nat.sub_sub_self hc.le, Nat.mod_eq_of_lt hc]

/-- Settles O56: at the start no period has begun, and `periods_begun` reads the phase and the countdown off the cycle
after `n` steps. -/
theorem periodLaw : Obligations.PeriodLaw := by
  intro s n hlive hr hm h0 hn
  have hstart : s.Cycling s.wave.divider s.wave.index.toNat 0 :=
    ⟨hlive, hr, hm, rfl, by rw [h0]; exact period_pos _, 0, by rw [h0]; simp, by
      have := s.wave.index.isLt
      omega⟩
  obtain ⟨u, hu, hcyc⟩ := hstart.steps (m := n)
  rw [Nat.zero_add] at hcyc
  obtain ⟨k, hk, hidx⟩ := hcyc.turns
  obtain ⟨hturns, hcount⟩ := periods_begun hn hcyc.below hk
  exact ⟨u, hu, hcyc.divider, hturns ▸ hidx, hcount⟩

end Sys2Proof.Machine
